-- ==== Sys2Proof/Word.lean ====
section
/-!
DEFINITION. The words of the block (00_scope.md R9, R15; 20_memory.md R61): every value is an unsigned word of a
stated width, carried whole. There are no bytes in memory, because the block has no memory (R60).
-/

namespace Sys2Proof

/-- An 8-bit encoding, context id or operation code (30_encoding.md R80, R90). -/
abbrev Byte := BitVec 8

/-- A 32-bit word: PERIOD, and the carrier of the W-bit counter values, `2 <= W <= 32` (R6, R9, R96). -/
abbrev Word := BitVec 32

/-- The 64-bit timestamp (R9). -/
abbrev Stamp := BitVec 64

end Sys2Proof
end

