-- ==== Sys2Proof/Config.lean ====
section
/-!
DEFINITION. The implementation parameters (00_scope.md R6 to R12) and the free values of the model.

A run's parameters are ONE record of plain data that the state carries and no step writes, so that a statement about
every state is a statement about every choice of the parameters (notes/assumptions/1.md). What the spec calls "any
value" or leaves to a draw is either a field of a record below, over which statements range, or an opaque constant:
an opaque constant has no body, so nothing in Lean can find its value.
-/

namespace Sys2Proof

/-- The parameters a model of the block takes (R6 to R12). `N_READERS` (R11) is the number of entries of the state's
list of contexts and is not kept a second time here; `L` and `G` (R283) are bounds on runs, see Safety.lean. -/
structure Params where
  /-- `W`, the width of the Hardware Counter in bits (R6). -/
  W : Nat
  /-- `F`, the tick frequency in Hz (R7); no rule of the spec reads it. -/
  F : Nat
  /-- `CMP_SLOT`, the compare slot of the half-cycle event, 0 to 15 (R10). -/
  cmpSlot : BitVec 4
  /-- `N_SLOTS`, the number of compare slots the peripheral has (R10). -/
  nSlots : Nat
  /-- `EVENTS_LATCH_WHEN_DISABLED` (R12, R116). -/
  latchWhenDisabled : Bool
  deriving DecidableEq, Repr, Inhabited

/-- The ranges the spec admits: `2 <= W <= 32` (R6) and `1 <= N_SLOTS <= 16` (R10). -/
def Params.valid (p : Params) : Bool :=
  decide (2 ≤ p.W) && decide (p.W ≤ 32) && decide (1 ≤ p.nSlots) && decide (p.nSlots ≤ 16)

/-- What the environment draws for one step (R12): whether the peripheral accepts a SET_COMPARE (PERIPH_ACCEPTS, R211)
and the response bits that no rule fixes (RESP[31:W] of GET_COUNTER, RESP[31:1] of the one-bit responses; 93 U7). With
them, what the spec leaves open of a model error, a step that reads a register holding no value (R46, 93 U15). -/
structure Draw where
  accepts : Bool
  respFill : Word
  /-- Free: FAULT_CAUSE less 1 of a model error; it "should fault" (R46), and no rule states the cause. -/
  errorCause : Fin 5
  /-- Free: FAULT_SRC of a fault of INITSEQ while INIT_OWNER holds no value. -/
  errorSrc : Byte
  deriving DecidableEq, Repr, Inhabited

/-- The peripheral state that reset leaves at "any value" (70_reset_and_hazards.md R270; 93 U6). -/
structure ResetDraw where
  counter : Word
  cc : Word
  running : Bool
  eventOvf : Bool
  eventCmp : Bool
  deriving DecidableEq, Repr, Inhabited

/-- One choice of the free scheduler (R13): a step code (`isStep`) or a request word, the context it is for, and what
the environment draws for that step. -/
structure Choice where
  isStep : Bool
  src : Byte
  word : Byte
  draw : Draw
  deriving DecidableEq, Repr, Inhabited

/-! ## Free values: opaque, without a body -/

/-- Free: `W - 2`, so that W has each value of 2 to 32 (R6). -/
opaque Config.widthLess2 : Fin 31

/-- Free: F (R7). -/
opaque Config.tickHz : Nat

/-- Free: CMP_SLOT (R10). -/
opaque Config.cmpSlot : BitVec 4

/-- Free: `N_SLOTS - 1` (R10). -/
opaque Config.nSlotsLess1 : Fin 16

/-- Free: `N_READERS - 1` (R11). -/
opaque Config.nReadersLess1 : Fin 255

/-- Free: EVENTS_LATCH_WHEN_DISABLED (R12, R116). -/
opaque Config.eventsLatchWhenDisabled : Bool

/-- Free: the peripheral's state found at reset (R270). -/
opaque Config.resetDraw : ResetDraw

/-- Free: the environment's draw that stands in the state before the first step; every step overwrites it. -/
opaque Config.firstDraw : Draw

/-- Free: the n-th choice of the scheduler (R13: any enabled step of any agent may be taken next). -/
opaque Config.choice : Nat → Choice

/-- The parameters of the machine after reset: every one of them open. -/
def Config.params : Params where
  W := Config.widthLess2.val + 2
  F := Config.tickHz
  cmpSlot := Config.cmpSlot
  nSlots := Config.nSlotsLess1.val + 1
  latchWhenDisabled := Config.eventsLatchWhenDisabled

/-- `N_READERS` after reset, 1 to 255 (R11). -/
def Config.nReaders : Nat := Config.nReadersLess1.val + 1

end Sys2Proof
end

