-- ==== Sys2Proof/Syntax.lean ====
section
/-!
DEFINITION. The operations of the block, one constructor per row of spec/opcode_table.json, and the lines in which they
reach the machine: a request word with the id on its sideband (URP), a peripheral command with its data (PCP), a step
code of an agent (MOP) (30_encoding.md R80, R81, R86, R91).
-/

namespace Sys2Proof

/-- The event kinds (R89): `ovf` is 0, `cmp` is 1. -/
inductive Kind where
  | ovf
  | cmp
  deriving DecidableEq, Repr, Inhabited

/-- The operations of the opcode table. `src` and `r` are context ids (R90). -/
inductive Instr where
  -- URP: upstream requests (R82 to R84)
  | init (src : Byte)
  | now (src : Byte)
  | irqService (src : Byte)
  -- PCP: peripheral commands (R87)
  | getCounter
  | setCompare (slot : BitVec 4) (data : Word)
  | clearCounter
  | enableCounter
  | enableInterrupt (k : Kind)
  | isEventTriggered (k : Kind)
  | resetEvent (k : Kind)
  -- MOP: the reader's steps (R141, R143)
  | rdSampleP (r : Byte)
  | rdSampleC (r : Byte)
  -- MOP: the interrupt sequencer's steps (R170 to R178)
  | sqEnter
  | sqChkOvf
  | sqAckOvf
  | sqIncOvf
  | sqChkCmp
  | sqAckCmp
  | sqIncCmp
  | sqExit
  -- MOP: the init sequencer's steps (R190 to R196)
  | inZero
  | inSetcmp
  | inClear
  | inStart
  | inPoll
  | inEnOvf
  | inEnCmp
  -- MOP: the counter peripheral's steps (R115, R117)
  | hwTick
  | hwClearApply
  deriving DecidableEq, Repr, Inhabited

/-- A line as it arrives, undecoded. The port tells the format, not the word (R80). -/
inductive Line where
  /-- A request word on a context's request port, with the issuing id on the sideband (R81, R90). -/
  | urp (src word : Byte)
  /-- A step code; `ctx` names the context of a reader step (R91, R92). -/
  | mop (ctx word : Byte)
  /-- A command word on the peripheral command port, with DATA (R86). -/
  | pcp (word : Byte) (data : Word)
  deriving DecidableEq, Repr, Inhabited

/-- The id of RTC_IRQ, the routed interrupt context (R90). -/
def rtcIrq : Byte := 0xFF

end Sys2Proof
end

