-- ==== Sys2Proof/WellFormed.lean ====
section
/-!
DEFINITION. Which instructions are well formed in a machine with `n` software contexts (30_encoding.md R90): the ids
0 to n-1 are SW(r), 0xFF is RTC_IRQ, every other id is unused and never issued.
-/

namespace Sys2Proof

/-- The id of a software context SW(r), `r < N_READERS` (R90). -/
def isSoftware (n : Nat) (src : Byte) : Bool := src != rtcIrq && decide (src.toNat < n)

/-- An id that issues requests: a software context or RTC_IRQ (R90). -/
def isIssuer (n : Nat) (src : Byte) : Bool := src == rtcIrq || isSoftware n src

/-- A request may come from any issuing context, and from the wrong one too: it then faults (R235). A reader step
belongs to a software context (R92); RTC_IRQ may issue NOW, whose acceptance is rd.sample_p, only to fault (R141).
Every other operation carries only fields whose every value is defined. -/
def Instr.wellFormed (n : Nat) : Instr → Bool
  | .init src => isIssuer n src
  | .now src => isIssuer n src
  | .irqService src => isIssuer n src
  | .getCounter => true
  | .setCompare _ _ => true
  | .clearCounter => true
  | .enableCounter => true
  | .enableInterrupt _ => true
  | .isEventTriggered _ => true
  | .resetEvent _ => true
  | .rdSampleP r => isIssuer n r
  | .rdSampleC r => isSoftware n r
  | .sqEnter => true
  | .sqChkOvf => true
  | .sqAckOvf => true
  | .sqIncOvf => true
  | .sqChkCmp => true
  | .sqAckCmp => true
  | .sqIncCmp => true
  | .sqExit => true
  | .inZero => true
  | .inSetcmp => true
  | .inClear => true
  | .inStart => true
  | .inPoll => true
  | .inEnOvf => true
  | .inEnCmp => true
  | .hwTick => true
  | .hwClearApply => true

end Sys2Proof
end

