-- ==== Sys2Proof/Decode.lean ====
section
/-!
DEFINITION. The decoder, total on every line and rejecting by name (30_encoding.md R85, R87, R92, R97), and after it
the encoder, written from the same tables. The port selects the format (R80): the same eight bits are INIT on a request
port and GET_COUNTER on the peripheral command port.
-/

namespace Sys2Proof

/-- Why a line names no operation. -/
inductive Reject where
  /-- A reserved request word (R85); issuing it faults ILLEGAL_COMMAND (R234). -/
  | reservedRequest (word : Byte)
  /-- A reserved step code (R92); a schedule decoder refuses it. -/
  | reservedStep (word : Byte)
  /-- A reserved command word (R87); the block never emits one (R217). -/
  | reservedCommand (word : Byte)
  /-- A context id beside a step that has none, or DATA beside a command that carries none (R86: "else 0"). -/
  | strayOperand (word : Byte)
  deriving DecidableEq, Repr

/-- What the decoder answers. -/
inductive Decoded where
  | instr (i : Instr)
  | rejected (r : Reject)
  deriving DecidableEq, Repr

/-! ## Fields -/

/-- Bits [7:4] of a word: OP of a command (R86), UNIT of a step code (R91). -/
def hiNibble (w : Byte) : BitVec 4 := w.extractLsb' 4 4

/-- Bits [3:0] of a word: ARG (R81, R86), STEP (R91). -/
def loNibble (w : Byte) : BitVec 4 := w.extractLsb' 0 4

/-- The event-kind field (R89): 0 is OVF, 1 is CMP, 2 to 15 are reserved. -/
def kindOf (arg : BitVec 4) : Option Kind :=
  match arg.toNat with
  | 0 => some .ovf
  | 1 => some .cmp
  | _ => none

/-! ## The three formats -/

/-- A request word (R81 to R85): Z must be 0, ARG must be 0, OP is 1, 2 or 3. -/
def decodeUrp (src w : Byte) : Decoded :=
  match (w.extractLsb' 7 1).toNat, (w.extractLsb' 4 3).toNat, (loNibble w).toNat with
  | 0, 1, 0 => .instr (.init src)
  | 0, 2, 0 => .instr (.now src)
  | 0, 3, 0 => .instr (.irqService src)
  | _, _, _ => .rejected (.reservedRequest w)

/-- The step of a step code (R91, R92); none for a reserved code. -/
def stepOf (ctx w : Byte) : Option Instr :=
  match (hiNibble w).toNat, (loNibble w).toNat with
  | 0x8, 0 => some (.rdSampleP ctx)
  | 0x8, 1 => some (.rdSampleC ctx)
  | 0x9, 0 => some .sqEnter
  | 0x9, 1 => some .sqChkOvf
  | 0x9, 2 => some .sqAckOvf
  | 0x9, 3 => some .sqIncOvf
  | 0x9, 4 => some .sqChkCmp
  | 0x9, 5 => some .sqAckCmp
  | 0x9, 6 => some .sqIncCmp
  | 0x9, 7 => some .sqExit
  | 0xA, 1 => some .inZero
  | 0xA, 2 => some .inSetcmp
  | 0xA, 3 => some .inClear
  | 0xA, 4 => some .inStart
  | 0xA, 5 => some .inPoll
  | 0xA, 6 => some .inEnOvf
  | 0xA, 7 => some .inEnCmp
  | 0xB, 0 => some .hwTick
  | 0xB, 1 => some .hwClearApply
  | _, _ => none

/-- Only the reader's steps belong to one of several contexts (R92), so only they carry a context id. -/
def decodeMop (ctx w : Byte) : Decoded :=
  match stepOf ctx w with
  | none => .rejected (.reservedStep w)
  | some i => if hiNibble w = 0x8 ∨ ctx = 0 then .instr i else .rejected (.strayOperand w)

/-- The command of a command word (R86 to R89); none for a reserved word. -/
def commandOf (w : Byte) (data : Word) : Option Instr :=
  match (hiNibble w).toNat, (loNibble w).toNat with
  | 1, 0 => some .getCounter
  | 2, _ => some (.setCompare (loNibble w) data)
  | 3, 0 => some .clearCounter
  | 4, 0 => some .enableCounter
  | 5, _ => (kindOf (loNibble w)).map .enableInterrupt
  | 6, _ => (kindOf (loNibble w)).map .isEventTriggered
  | 7, _ => (kindOf (loNibble w)).map .resetEvent
  | _, _ => none

/-- DATA is the compare value of SET_COMPARE and 0 with every other command (R86). -/
def decodePcp (w : Byte) (data : Word) : Decoded :=
  match commandOf w data with
  | none => .rejected (.reservedCommand w)
  | some i => if hiNibble w = 2 ∨ data = 0 then .instr i else .rejected (.strayOperand w)

/-- The decoder: total, by port (R80, R97). -/
def decode : Line → Decoded
  | .urp src w => decodeUrp src w
  | .mop ctx w => decodeMop ctx w
  | .pcp w data => decodePcp w data

/-! ## The encoder -/

/-- The number of an event kind (R89). -/
def Kind.code : Kind → BitVec 4
  | .ovf => 0
  | .cmp => 1

/-- A word from its high and low nibble. -/
def nibbles (hi lo : BitVec 4) : Byte := hi ++ lo

/-- The line of an instruction (R82 to R84, R87, R92). -/
def encode : Instr → Line
  | .init src => .urp src 0x10
  | .now src => .urp src 0x20
  | .irqService src => .urp src 0x30
  | .getCounter => .pcp 0x10 0
  | .setCompare slot data => .pcp (nibbles 2 slot) data
  | .clearCounter => .pcp 0x30 0
  | .enableCounter => .pcp 0x40 0
  | .enableInterrupt k => .pcp (nibbles 5 k.code) 0
  | .isEventTriggered k => .pcp (nibbles 6 k.code) 0
  | .resetEvent k => .pcp (nibbles 7 k.code) 0
  | .rdSampleP r => .mop r 0x80
  | .rdSampleC r => .mop r 0x81
  | .sqEnter => .mop 0 0x90
  | .sqChkOvf => .mop 0 0x91
  | .sqAckOvf => .mop 0 0x92
  | .sqIncOvf => .mop 0 0x93
  | .sqChkCmp => .mop 0 0x94
  | .sqAckCmp => .mop 0 0x95
  | .sqIncCmp => .mop 0 0x96
  | .sqExit => .mop 0 0x97
  | .inZero => .mop 0 0xA1
  | .inSetcmp => .mop 0 0xA2
  | .inClear => .mop 0 0xA3
  | .inStart => .mop 0 0xA4
  | .inPoll => .mop 0 0xA5
  | .inEnOvf => .mop 0 0xA6
  | .inEnCmp => .mop 0 0xA7
  | .hwTick => .mop 0 0xB0
  | .hwClearApply => .mop 0 0xB1

/-- The eight bits of a line: what FAULT_OP names (R26) and the opcode table lists. -/
def Line.word : Line → Byte
  | .urp _ w => w
  | .mop _ w => w
  | .pcp w _ => w

/-! ## The opcode table's numbers

The table gives each row eight bits, and rows of different formats share words: 0x10 is INIT and GET_COUNTER, 0x20 is
NOW and SET_COMPARE slot 0, 0x30 is IRQ_SERVICE and CLEAR_COUNTER. A number is laid out as the word (bits 7..0), the
context id on the sideband (15..8), DATA (47..16) and a port tag (49..48: 1 URP, 2 PCP, 3 MOP). A number with tag 0, as
every number of eight bits has, goes to the port the word belongs to, and a word of two ports to the request port, where
words are decoded at all (R80: "PCP words are only ever emitted by the block"). See notes/assumptions/8.md. -/

/-- The words of the request format: a number without a port tag takes them to the request port (R82 to R84). -/
def isRequestWord (w : Byte) : Bool := w == 0x10 || w == 0x20 || w == 0x30

/-- The line of a number of the table. -/
def lineOfTable (nbits w : Nat) : Line :=
  let n := w % 2 ^ nbits
  let word : Byte := BitVec.ofNat 8 n
  let ctx : Byte := BitVec.ofNat 8 (n / 2 ^ 8)
  let data : Word := BitVec.ofNat 32 (n / 2 ^ 16)
  match n / 2 ^ 48 % 4 with
  | 1 => .urp ctx word
  | 2 => .pcp word data
  | 3 => .mop ctx word
  | _ => if isRequestWord word then .urp ctx word else if word.msb then .mop ctx word else .pcp word data

/-- The instruction the decoder reads from a number of the table; none where it refuses. -/
def decodeTableWord (nbits w : Nat) : Option Instr :=
  match decode (lineOfTable nbits w) with
  | .instr i => some i
  | .rejected _ => none

end Sys2Proof
end

