-- ==== Sys2Proof/Machine/Bits.lean ====
section
/-!
DEFINITION. Fields of words: the low W bits, the constants that depend on W (00_scope.md R8, R15).
-/

namespace Sys2Proof.Machine

/-- `v mod 2^w`, carried in 32 bits: the low `w` bits of `v`, zero above (R8 MASK_W, R145). -/
def trunc (w : Nat) (v : Word) : Word := (v.setWidth w).setWidth 32

/-- A response whose bits [w-1:0] a rule fixes and whose bits [31:w] are any value (R94, R210). -/
def joinLow (w : Nat) (low fill : Word) : Word := ((fill >>> w) <<< w) ||| trunc w low

/-- `H = 2^(W-1)`, one period in ticks (R8). -/
def halfTicks (w : Nat) : Nat := 2 ^ (w - 1)

/-- `zext_32(H)`: bit W-1 set and all other bits 0 (R93). -/
def half (w : Nat) : Word := BitVec.ofNat 32 (halfTicks w)

/-- `CMAX = 2^W - 1`, the largest counter value (R8). -/
def cmax (w : Nat) : Word := BitVec.ofNat 32 (2 ^ w - 1)

/-- A flag as a response word's low bit (R215). -/
def flagWord (b : Bool) : Word := if b then 1 else 0

end Sys2Proof.Machine
end

