-- ==== Sys2Proof/Machine/State.lean ====
section
/-!
DEFINITION. The state of the block and of the counter peripheral it drives (10_state.md R20 to R46), as plain data, and
the state after reset (70_reset_and_hazards.md R270). INVENTORY.md lists every field with its rule and reset value.
-/

namespace Sys2Proof.Machine

/-- LIFECYCLE, 2 bits (R24). -/
inductive Lifecycle where
  | uninit
  | initializing
  | running
  | faulted
  deriving DecidableEq, Repr

/-- FAULT_CAUSE, 4 bits (R25, R230); codes 6 to 15 are reserved and never written. -/
inductive Cause where
  | none
  | notInitialized
  | initFailed
  | alreadyInitialized
  | illegalCommand
  | illegalContext
  deriving DecidableEq, Repr

/-- INIT_STATE, 3 bits (R28). -/
inductive InitState where
  | idle
  | zero
  | setcmp
  | clear
  | start
  | poll
  | enOvf
  | enCmp
  deriving DecidableEq, Repr

/-- SEQ_STATE, 3 bits (R30). -/
inductive SeqState where
  | idle
  | chkOvf
  | ackOvf
  | incOvf
  | chkCmp
  | ackCmp
  | incCmp
  | exit
  deriving DecidableEq, Repr

/-- PORT_STATE[r], 2 bits (R31); value 3 is reserved and never written. -/
inductive PortState where
  | idle
  | haveP
  | initWait
  deriving DecidableEq, Repr

/-- What `deliver` puts on a context's response port (R16, R143, R196). -/
inductive Response where
  | timestamp (v : Stamp)
  | done
  deriving DecidableEq, Repr

/-- The registers of one software context SW(r) (R31 to R34). `none` in a latch is the spec's own "no value" (R46). -/
structure Context where
  portState : PortState
  pLatch : Option Word
  cLatch : Option Word
  result : Option Stamp
  /-- The last response delivered on this context's port; `none` before the first. -/
  response : Option Response
  deriving DecidableEq, Repr

/-- One bit per event kind (R39, R40, R89). -/
structure KindBits where
  ovf : Bool
  cmp : Bool
  deriving DecidableEq, Repr

/-- The counter peripheral at contract level (R35 to R40). COUNTER and CC are W bits wide, carried in 32. -/
structure Peripheral where
  counter : Word
  running : Bool
  clearPending : Bool
  cc : Word
  event : KindBits
  inten : KindBits
  deriving DecidableEq, Repr

/-- The agent column of a schedule line (R99); `r` is a decimal context number. -/
inductive Agent where
  | sw (r : Nat)
  | irq
  | init
  | hw
  deriving DecidableEq, Repr

/-- The mnemonic column (R99), its operand, and the pseudo-instructions (R100). -/
inductive Mnemonic where
  | init
  | nowP
  | nowC
  | raw (w : Byte)
  | enter
  | chkOvf
  | ackOvf
  | incOvf
  | chkCmp
  | ackCmp
  | incCmp
  | exit
  | zero
  | setcmp
  | clear
  | start
  | poll
  | enOvf
  | enCmp
  | tick
  | clearApply
  | now
  | service
  | tickN (n : Nat)
  | run
  deriving DecidableEq, Repr

/-- What the outside gives the machine next: a line as it arrives, or a line of a schedule's text (R99, R100), each with
the environment's draw for its steps, or the block's one reset (R272) with the peripheral state it is found in. -/
inductive Input where
  | line (l : Line) (d : Draw)
  | text (a : Agent) (m : Mnemonic) (d : Draw)
  | reset (d : ResetDraw)
  deriving DecidableEq, Repr

structure State where
  /-- The run's parameters (R6 to R12); no step writes them. -/
  params : Params
  /-- PERIOD (R22). -/
  period : Word
  /-- PERIOD_VALID (R23). -/
  periodValid : Bool
  /-- LIFECYCLE (R24). -/
  lifecycle : Lifecycle
  /-- FAULT_CAUSE (R25). -/
  faultCause : Cause
  /-- FAULT_OP (R26). -/
  faultOp : Byte
  /-- FAULT_SRC (R27). -/
  faultSrc : Byte
  /-- INIT_STATE (R28). -/
  initState : InitState
  /-- INIT_OWNER (R29); `none` is "no value" (R46). -/
  initOwner : Option Byte
  /-- SEQ_STATE (R30). -/
  seqState : SeqState
  /-- The contexts SW(0) to SW(N_READERS-1) (R11, R31 to R34). -/
  contexts : List Context
  /-- The counter peripheral (R35 to R40). -/
  hw : Peripheral
  /-- RESP of the last command that a line issued by itself (R86); `none` before the first. The model's own. -/
  pcpResp : Option Word
  /-- `t_ghost` (R43): ticks since the last clear took effect; `none` before the first. -/
  tGhost : Option Nat
  /-- `incs_ghost` (R43): increments since the last in.zero. -/
  incsGhost : Nat
  /-- The inputs still to come, the next one first. The model's own. -/
  schedule : List Input
  /-- How many choices of the free scheduler have been used. The model's own. -/
  draws : Nat
  /-- The environment's draw for the step being taken. The model's own. -/
  draw : Draw
  /-- Whether the peripheral stands on a bench, where command lines drive its command port (notes/assumptions/19.md). The
  block's machine has it false, and no step writes it: nothing but the block's steps issues a command (R218). The
  model's own. -/
  bench : Bool
  deriving DecidableEq, Repr

/-- Why the machine would stop with a fault: it never does. A fault of the block is a state, entered by a next state
(R236), and so is the fault of a model error (R46, 93 U15: "the block enters FAULTED"). No step raises one. Safe. -/
inductive Fault where
  deriving DecidableEq, Repr

/-- Why a line is not taken. -/
inductive Refusal where
  /-- An operation without a meaning; raised by an arm of exec only. Safe. -/
  | notModelled (mnemonic : String)
  /-- The step is not enabled in this state: the line describes no execution and a checker of schedules rejects it
  (R99, R14); a command line off the bench is none either (R218). Raised by every meaning. Safe. -/
  | notEnabled
  /-- The id is one of N_READERS to 0xFE: "unused; never issued" (R90). Raised by the requests and the reader's steps,
  and by in.en_cmp for an INIT_OWNER that is no context. Safe. -/
  | unusedContext
  /-- A reserved step code: "A schedule decoder refuses it" (R92, 93 U3). Raised by step. Safe. -/
  | reservedStep
  /-- A reserved command word: the block never emits one (R87, R217, 93 U2). Raised by step. Safe. -/
  | reservedCommand
  /-- A context id or DATA beside a word that has none (R86, R92). Raised by step. Safe. -/
  | strayOperand
  /-- A line of a schedule's text that R99 and R100 do not list: it describes no execution. Raised by step. Safe. -/
  | noSuchLine
  deriving DecidableEq, Repr

/-- A context after reset (R270). -/
def Context.atReset : Context where
  portState := .idle
  pLatch := none
  cLatch := none
  result := none
  response := none

/-- The peripheral as reset leaves it: CLEAR_PENDING and INTEN are 0, the rest is any value (R270). -/
def Peripheral.atReset (p : Params) (d : ResetDraw) : Peripheral where
  counter := trunc p.W d.counter
  running := d.running
  clearPending := false
  cc := trunc p.W d.cc
  event := ⟨d.eventOvf, d.eventCmp⟩
  inten := ⟨false, false⟩

/-- The machine right after reset (R270): the parameters and the peripheral's "any value" registers are free. -/
def State.reset : State where
  params := Config.params
  period := 0
  periodValid := false
  lifecycle := .uninit
  faultCause := .none
  faultOp := 0
  faultSrc := 0
  initState := .idle
  initOwner := none
  seqState := .idle
  contexts := List.replicate Config.nReaders Context.atReset
  hw := Peripheral.atReset Config.params Config.resetDraw
  pcpResp := none
  tGhost := none
  incsGhost := 0
  schedule := []
  draws := 0
  draw := Config.firstDraw
  bench := false

end Sys2Proof.Machine
end

