-- ==== Sys2Proof/Machine/Operands.lean ====
section
/-!
DEFINITION. Operands (30_encoding.md R90, R93, R94): the context an id names, the one immediate, and the fields of a
response the block uses.
-/

namespace Sys2Proof.Machine

/-- The value of FAULT_CAUSE (R230). -/
def Cause.code : Cause → BitVec 4
  | .none => 0
  | .notInitialized => 1
  | .initFailed => 2
  | .alreadyInitialized => 3
  | .illegalCommand => 4
  | .illegalContext => 5

/-- The cause that a draw leaves for a model error: any of the five (R230), never NONE (R25). -/
def Cause.ofDraw : Fin 5 → Cause
  | 0 => .notInitialized
  | 1 => .initFailed
  | 2 => .alreadyInitialized
  | 3 => .illegalCommand
  | 4 => .illegalContext

/-- The value of LIFECYCLE (R24). -/
def Lifecycle.code : Lifecycle → BitVec 2
  | .uninit => 0
  | .initializing => 1
  | .running => 2
  | .faulted => 3

/-- The value of INIT_STATE (R28), which is the STEP nibble of the step it enables (R91). -/
def InitState.code : InitState → BitVec 3
  | .idle => 0
  | .zero => 1
  | .setcmp => 2
  | .clear => 3
  | .start => 4
  | .poll => 5
  | .enOvf => 6
  | .enCmp => 7

/-- The value of SEQ_STATE (R30), which is the STEP nibble of the step it enables (R91). -/
def SeqState.code : SeqState → BitVec 3
  | .idle => 0
  | .chkOvf => 1
  | .ackOvf => 2
  | .incOvf => 3
  | .chkCmp => 4
  | .ackCmp => 5
  | .incCmp => 6
  | .exit => 7

/-- The value of PORT_STATE[r] (R31), which is the STEP nibble of the reader step it enables (R91). -/
def PortState.code : PortState → BitVec 2
  | .idle => 0
  | .haveP => 1
  | .initWait => 2

/-- `N_READERS` (R11). -/
def State.nReaders (s : State) : Nat := s.contexts.length

/-- The registers of context `r`; none for an id that is no software context (R90). -/
def State.context? (s : State) (r : Byte) : Option Context :=
  if r = rtcIrq then none else s.contexts[r.toNat]?

/-- The immediate of in.setcmp: `DATA = zext_32(H)` (R93). -/
def State.compareImmediate (s : State) : Word := half s.params.W

/-- The counter in a GET_COUNTER response: RESP[W-1:0], the bits above ignored (R94, R145). -/
def respCounter (w : Nat) (resp : Word) : Word := trunc w resp

/-- The flag in an IS_EVENT_TRIGGERED response: RESP[0] (R94). -/
def respFlag (resp : Word) : Bool := resp.getLsbD 0

/-- Whether a SET_COMPARE response refuses: RESP[0] = 1 (R94). -/
def respRefused (resp : Word) : Bool := resp.getLsbD 0

end Sys2Proof.Machine
end

