-- ==== Sys2Proof/Machine/Flags.lean ====
section
/-!
DEFINITION. The block's status bits (10_state.md R42): parity, the event flags and the interrupt line, and the
comparison logic that sets the flags (40_period_counter.md R114, R116).
-/

namespace Sys2Proof.Machine

/-- The bit of an event kind. -/
def KindBits.get (b : KindBits) : Kind → Bool
  | .ovf => b.ovf
  | .cmp => b.cmp

/-- The bits with the one of kind `k` set to `v`. -/
def KindBits.set (b : KindBits) (k : Kind) (v : Bool) : KindBits :=
  match k with
  | .ovf => { b with ovf := v }
  | .cmp => { b with cmp := v }

/-- Parity, PERIOD[0]: true is odd (R42). -/
def State.parity (s : State) : Bool := s.period.getLsbD 0

/-- The interrupt request line, a derived signal (R41). -/
def State.line (s : State) : Bool := (s.hw.event.ovf && s.hw.inten.ovf) || (s.hw.event.cmp && s.hw.inten.cmp)

/-- Overflow occurs iff the counter before the tick is CMAX (R114). -/
def overflows (p : Params) (old : Word) : Bool := old == cmax p.W

/-- Compare-match occurs iff the counter after the tick is CC (R114). -/
def matchesCompare (h : Peripheral) (new : Word) : Bool := new == h.cc

/-- Whether an event of kind `k` may set its flag: its interrupt is enabled, or events latch while disabled (R116). -/
def mayLatch (p : Params) (h : Peripheral) (k : Kind) : Bool := h.inten.get k || p.latchWhenDisabled

/-- `raise_event(k)`, when `occurs` (R116). A flag already set stays set (R39). -/
def raiseEvent (p : Params) (k : Kind) (occurs : Bool) (h : Peripheral) : Peripheral :=
  { h with event := h.event.set k (h.event.get k || (occurs && mayLatch p h k)) }

end Sys2Proof.Machine
end

