-- ==== Sys2Proof/Machine/Ops.lean ====
section
/-!
DEFINITION. The operations the meanings share: named updates of the state, the enabling conditions, taking a fault and
leaving the fault state, the commands of the counter peripheral.
-/

namespace Sys2Proof.Machine

/-! ## Named updates -/

def State.setSeqState (s : State) (q : SeqState) : State := { s with seqState := q }

def State.setInitState (s : State) (q : InitState) : State := { s with initState := q }

def State.setHw (s : State) (h : Peripheral) : State := { s with hw := h }

def State.setPcpResp (s : State) (v : Word) : State := { s with pcpResp := some v }

/-- The registers of context `r` changed by `f`; a state without that context is unchanged. -/
def State.modifyContext (s : State) (r : Byte) (f : Context → Context) : State :=
  { s with contexts := s.contexts.modify r.toNat f }

/-- INCREMENT, the only counting update of PERIOD: one atomic add of 1, wrapping at 32 bits (R110). -/
def State.increment (s : State) : State :=
  { s with period := s.period + 1, incsGhost := s.incsGhost + 1 }

/-- The bookkeeping of a step: the inputs left to come, and the environment's draw for this step. -/
def State.take (s : State) (rest : List Input) (d : Draw) : State := { s with schedule := rest, draw := d }

/-- The bookkeeping of a free choice: one more is used, and the environment's draw for this step. -/
def State.takeChoice (s : State) (d : Draw) : State := { s with draws := s.draws + 1, draw := d }

/-! ## Faults: entry, and reset as the only way out -/

/-- Fault entry, `raise Fault(code, op)`: the whole effect of the faulting step (R236). `src` is the issuing context's
id, or INIT_OWNER for a step of INITSEQ. Nothing else changes (R237). -/
def State.enterFault (s : State) (cause : Cause) (op src : Byte) : State :=
  { s with lifecycle := .faulted, faultCause := cause, faultOp := op, faultSrc := src }

/-- The FAULT_SRC of a fault of INITSEQ: INIT_OWNER (R27, R236), or a free value while that holds none. -/
def State.faultOwner (s : State) : Byte := s.initOwner.getD s.draw.errorSrc

/-- A step that reads a register holding no value, which no run does, is a model error and faults (R46): "the block enters
FAULTED" (93 U15). No rule states the cause, which is a free value (notes/assumptions/2.md). -/
def State.enterModelError (s : State) (op src : Byte) : State := s.enterFault (Cause.ofDraw s.draw.errorCause) op src

/-- The block's one reset, the only way out of FAULTED (R238, R271, R272): every register takes its reset value, and
the peripheral is found in any state `d`. The parameters, the number of contexts, the inputs still to come and the
bench are not registers of the block and stay. -/
def State.applyReset (s : State) (d : ResetDraw) : State :=
  { State.reset with
    params := s.params
    contexts := s.contexts.map fun _ => Context.atReset
    hw := Peripheral.atReset s.params d
    schedule := s.schedule
    draws := s.draws
    draw := s.draw
    bench := s.bench }

/-! ## Enabling conditions -/

/-- No agent takes a step while LIFECYCLE = FAULTED (R14). -/
def State.live (s : State) : Bool := s.lifecycle != .faulted

/-- Whether a software context may issue a request: it exists and its port is IDLE (R140, R180, R234). -/
def State.softwareReady (s : State) (src : Byte) : Option Refusal :=
  match s.context? src with
  | none => some .unusedContext
  | some c => if c.portState = .idle then none else some .notEnabled

/-- Whether a context may issue NOW, IRQ_SERVICE or a reserved word: RTC_IRQ needs SEQ_STATE = IDLE (R141, R170, R234).
None when it may. -/
def State.requestReady (s : State) (src : Byte) : Option Refusal :=
  if s.lifecycle = .faulted then some .notEnabled
  else if src = rtcIrq then if s.seqState = .idle then none else some .notEnabled
  else s.softwareReady src

/-- Whether a context may issue INIT: R180 asks nothing of RTC_IRQ but LIFECYCLE != FAULTED. None when it may. -/
def State.initReady (s : State) (src : Byte) : Option Refusal :=
  if s.lifecycle = .faulted then some .notEnabled
  else if src = rtcIrq then none
  else s.softwareReady src

/-- A step that is enabled iff `enabled` and LIFECYCLE != FAULTED (R14), and then leaves `t`. -/
def guarded (s : State) (enabled : Bool) (t : State) : Host.Outcome State Fault Refusal :=
  if enabled && s.live then .next t else .refused .notEnabled

/-- A step of the interrupt sequencer, enabled iff SEQ_STATE is `here` (R92). -/
def sequencerStep (s : State) (here : SeqState) (t : State) : Host.Outcome State Fault Refusal :=
  guarded s (s.seqState == here) t

/-- A step of the init sequencer, enabled iff INIT_STATE is `here` (R92, R183). -/
def initStep (s : State) (here : InitState) (t : State) : Host.Outcome State Fault Refusal :=
  guarded s (s.initState == here) t

/-! ## The peripheral command port

Each command takes effect in the step that issues it, CLEAR_COUNTER alone excepted (R73, R212). A response's bits that no
rule fixes are the environment's draw. -/

/-- GET_COUNTER (R210): no effect; RESP[W-1:0] is COUNTER. -/
def Peripheral.getCounter (h : Peripheral) (p : Params) (d : Draw) : Word := joinLow p.W h.counter d.respFill

/-- Whether the peripheral accepts SET_COMPARE on slot `slot` (R211). -/
def acceptsCompare (p : Params) (d : Draw) (slot : BitVec 4) : Bool := decide (slot.toNat < p.nSlots) && d.accepts

/-- SET_COMPARE's effect (R211): CC takes DATA[W-1:0] when the slot is CMP_SLOT and the peripheral accepts. -/
def Peripheral.setCompare (h : Peripheral) (p : Params) (d : Draw) (slot : BitVec 4) (data : Word) : Peripheral :=
  if acceptsCompare p d slot && slot == p.cmpSlot then { h with cc := trunc p.W data } else h

/-- SET_COMPARE's response (R211): RESP[0] is 0 when accepted and 1 when refused. -/
def setCompareResp (p : Params) (d : Draw) (slot : BitVec 4) : Word :=
  joinLow 1 (flagWord (!acceptsCompare p d slot)) d.respFill

/-- CLEAR_COUNTER (R212): COUNTER is cleared later, at hw.clear_apply. -/
def Peripheral.clearCounter (h : Peripheral) : Peripheral := { h with clearPending := true }

/-- ENABLE_COUNTER (R213). -/
def Peripheral.enableCounter (h : Peripheral) : Peripheral := { h with running := true }

/-- ENABLE_INTERRUPT (R214). -/
def Peripheral.enableInterrupt (h : Peripheral) (k : Kind) : Peripheral := { h with inten := h.inten.set k true }

/-- IS_EVENT_TRIGGERED (R215): no effect; RESP[0] is EVENT[k], whatever INTEN[k] holds. -/
def Peripheral.isEventTriggered (h : Peripheral) (d : Draw) (k : Kind) : Word :=
  joinLow 1 (flagWord (h.event.get k)) d.respFill

/-- RESET_EVENT (R216). -/
def Peripheral.resetEvent (h : Peripheral) (k : Kind) : Peripheral := { h with event := h.event.set k false }

/-! ## The Hardware Counter's own updates -/

/-- One tick (R115): the counter advances modulo 2^W, and the comparison logic raises the events (R114). -/
def Peripheral.tick (h : Peripheral) (p : Params) : Peripheral :=
  let new := trunc p.W (h.counter + 1)
  raiseEvent p .cmp (matchesCompare h new) (raiseEvent p .ovf (overflows p h.counter) { h with counter := new })

/-- The deferred effect of CLEAR_COUNTER (R117); a clear raises no event (R114). -/
def Peripheral.applyClear (h : Peripheral) : Peripheral := { h with counter := 0, clearPending := false }

/-! ## The composition unit -/

/-- `resolve(p, c)` at 64 bits (R144): `corrected_c = c XOR ((p & 1) << (W-1))`, `result = (p << (W-1)) + corrected_c`. -/
def resolve (w : Nat) (p c : Word) : Stamp :=
  let corrected : Stamp := c.setWidth 64 ^^^ ((p.setWidth 64 &&& 1) <<< (w - 1))
  (p.setWidth 64 <<< (w - 1)) + corrected

/-! ## Acceptance of a request -/

/-- `accept(src, 0x10)`, INIT (R180), with the faults in the order of R239. -/
def acceptInit (src : Byte) (s : State) : Host.Outcome State Fault Refusal :=
  match s.initReady src with
  | some r => .refused r
  | none =>
    if src = rtcIrq then .next (s.enterFault .illegalContext 0x10 src)
    else if s.lifecycle ≠ .uninit then .next (s.enterFault .alreadyInitialized 0x10 src)
    else .next { s.modifyContext src (fun c => { c with portState := .initWait }) with
      lifecycle := .initializing, initOwner := some src, initState := .zero }

/-- `accept(src, 0x20)`, NOW (R140, R141): the acceptance is the first sample. -/
def acceptNow (src : Byte) (s : State) : Host.Outcome State Fault Refusal :=
  match s.requestReady src with
  | some r => .refused r
  | none =>
    if src = rtcIrq then .next (s.enterFault .illegalContext 0x20 src)
    else if s.lifecycle ≠ .running then .next (s.enterFault .notInitialized 0x20 src)
    else .next (s.modifyContext src fun c => { c with pLatch := some s.period, portState := .haveP })

/-- `accept(src, 0x30)`, IRQ_SERVICE (R170). From RTC_IRQ before in.zero it faults NOT_INITIALIZED: R170 keeps that
"so that a looser environment model still faults rather than acts" (R231), and a request line is such an environment. -/
def acceptIrq (src : Byte) (s : State) : Host.Outcome State Fault Refusal :=
  match s.requestReady src with
  | some r => .refused r
  | none =>
    if src ≠ rtcIrq then .next (s.enterFault .illegalContext 0x30 src)
    else if s.periodValid = false then .next (s.enterFault .notInitialized 0x30 src)
    else .next (s.setSeqState .chkOvf)

/-- `accept(src, w)` of a reserved word (R234): ILLEGAL_COMMAND, from every context that may issue a request. -/
def acceptReserved (src w : Byte) (s : State) : Host.Outcome State Fault Refusal :=
  match s.requestReady src with
  | some r => .refused r
  | none => .next (s.enterFault .illegalCommand w src)

end Sys2Proof.Machine
end

