-- ==== Sys2Proof/Machine/Command.lean ====
section
/-!
DEFINITION. The peripheral commands, taken by themselves (43_peripheral_contract.md R210 to R216). The block issues each
one inside a step of its own, and nothing else issues one (R218). A command line issues one alone on a bench, away from
the block, and its response is kept in `pcpResp` (notes/assumptions/7.md, 19.md).
-/

namespace Sys2Proof.Machine

/-- GET_COUNTER, PCP 0x10 (R210). -/
def execGetCounter (s : State) : Host.Outcome State Fault Refusal :=
  guarded s s.bench (s.setPcpResp (s.hw.getCounter s.params s.draw))

/-- SET_COMPARE, PCP 0x2s (R211). -/
def execSetCompare (slot : BitVec 4) (data : Word) (s : State) : Host.Outcome State Fault Refusal :=
  guarded s s.bench
    ((s.setHw (s.hw.setCompare s.params s.draw slot data)).setPcpResp (setCompareResp s.params s.draw slot))

/-- CLEAR_COUNTER, PCP 0x30 (R212). -/
def execClearCounter (s : State) : Host.Outcome State Fault Refusal :=
  guarded s s.bench (s.setHw s.hw.clearCounter)

/-- ENABLE_COUNTER, PCP 0x40 (R213). -/
def execEnableCounter (s : State) : Host.Outcome State Fault Refusal :=
  guarded s s.bench (s.setHw s.hw.enableCounter)

/-- ENABLE_INTERRUPT, PCP 0x5k (R214). -/
def execEnableInterrupt (k : Kind) (s : State) : Host.Outcome State Fault Refusal :=
  guarded s s.bench (s.setHw (s.hw.enableInterrupt k))

/-- IS_EVENT_TRIGGERED, PCP 0x6k (R215). -/
def execIsEventTriggered (k : Kind) (s : State) : Host.Outcome State Fault Refusal :=
  guarded s s.bench (s.setPcpResp (s.hw.isEventTriggered s.draw k))

/-- RESET_EVENT, PCP 0x7k (R216). -/
def execResetEvent (k : Kind) (s : State) : Host.Outcome State Fault Refusal :=
  guarded s s.bench (s.setHw (s.hw.resetEvent k))

/-- The peripheral after a command word (R86, R87); an instruction that is no command changes nothing. -/
def Peripheral.runCommand (h : Peripheral) (p : Params) (d : Draw) : Instr → Peripheral
  | .init _ => h
  | .now _ => h
  | .irqService _ => h
  | .getCounter => h
  | .setCompare slot data => h.setCompare p d slot data
  | .clearCounter => h.clearCounter
  | .enableCounter => h.enableCounter
  | .enableInterrupt k => h.enableInterrupt k
  | .isEventTriggered _ => h
  | .resetEvent k => h.resetEvent k
  | .rdSampleP _ => h
  | .rdSampleC _ => h
  | .sqEnter => h
  | .sqChkOvf => h
  | .sqAckOvf => h
  | .sqIncOvf => h
  | .sqChkCmp => h
  | .sqAckCmp => h
  | .sqIncCmp => h
  | .sqExit => h
  | .inZero => h
  | .inSetcmp => h
  | .inClear => h
  | .inStart => h
  | .inPoll => h
  | .inEnOvf => h
  | .inEnCmp => h
  | .hwTick => h
  | .hwClearApply => h

/-- The commands a step of the block issues (R143, R172 to R177, R191 to R196; R217: no others). -/
def commandsOf (p : Params) : Instr → List Instr
  | .init _ => []
  | .now _ => []
  | .irqService _ => []
  | .getCounter => []
  | .setCompare _ _ => []
  | .clearCounter => []
  | .enableCounter => []
  | .enableInterrupt _ => []
  | .isEventTriggered _ => []
  | .resetEvent _ => []
  | .rdSampleP _ => []
  | .rdSampleC _ => [.getCounter]
  | .sqEnter => []
  | .sqChkOvf => [.isEventTriggered .ovf]
  | .sqAckOvf => [.resetEvent .ovf]
  | .sqIncOvf => []
  | .sqChkCmp => [.isEventTriggered .cmp]
  | .sqAckCmp => [.resetEvent .cmp]
  | .sqIncCmp => []
  | .sqExit => []
  | .inZero => []
  | .inSetcmp => [.setCompare p.cmpSlot (half p.W)]
  | .inClear => [.clearCounter]
  | .inStart => [.enableCounter]
  | .inPoll => [.getCounter]
  | .inEnOvf => [.enableInterrupt .ovf]
  | .inEnCmp => [.enableInterrupt .cmp]
  | .hwTick => []
  | .hwClearApply => []

end Sys2Proof.Machine
end

