-- ==== Sys2Proof/Machine/Counter.lean ====
section
/-!
DEFINITION. The steps of the counter peripheral (40_period_counter.md R115, R117).
-/

namespace Sys2Proof.Machine

/-- hw.tick, MOP 0xB0: enabled iff RUNNING = 1 (R115). -/
def execHwTick (s : State) : Host.Outcome State Fault Refusal :=
  guarded s s.hw.running { s with hw := s.hw.tick s.params, tGhost := s.tGhost.map (· + 1) }

/-- hw.clear_apply, MOP 0xB1: enabled iff CLEAR_PENDING = 1 (R117). -/
def execHwClearApply (s : State) : Host.Outcome State Fault Refusal :=
  guarded s s.hw.clearPending { s with hw := s.hw.applyClear, tGhost := some 0 }

end Sys2Proof.Machine
end

