-- ==== Sys2Proof/Machine/InitSeq.lean ====
section
/-!
DEFINITION. The init sequencer (42_interrupt_and_init.md R190 to R196), in the order of INIT_STATE (R181).
-/

namespace Sys2Proof.Machine

/-- in.zero, MOP 0xA1 (R190). -/
def execInZero (s : State) : Host.Outcome State Fault Refusal :=
  initStep s .zero { s with period := 0, periodValid := true, incsGhost := 0, initState := .setcmp }

/-- Whether in.setcmp fails: the slot does not exist, or the peripheral refuses (R191, R232). -/
def State.compareFails (s : State) : Bool :=
  !decide (s.params.cmpSlot.toNat < s.params.nSlots) ||
    respRefused (setCompareResp s.params s.draw s.params.cmpSlot)

/-- in.setcmp, MOP 0xA2 (R191), with its fault INIT_FAILED (R232). -/
def execInSetcmp (s : State) : Host.Outcome State Fault Refusal :=
  initStep s .setcmp
    (if s.compareFails then s.enterFault .initFailed 0xA2 s.faultOwner
    else (s.setHw (s.hw.setCompare s.params s.draw s.params.cmpSlot s.compareImmediate)).setInitState .clear)

/-- in.clear, MOP 0xA3 (R192). -/
def execInClear (s : State) : Host.Outcome State Fault Refusal :=
  initStep s .clear ((s.setHw s.hw.clearCounter).setInitState .start)

/-- in.start, MOP 0xA4 (R193). -/
def execInStart (s : State) : Host.Outcome State Fault Refusal :=
  initStep s .start ((s.setHw s.hw.enableCounter).setInitState .poll)

/-- in.poll, MOP 0xA5: the step repeats until it reads 0 (R194). -/
def execInPoll (s : State) : Host.Outcome State Fault Refusal :=
  initStep s .poll
    (s.setInitState
      (if respCounter s.params.W (s.hw.getCounter s.params s.draw) = 0 then .enOvf else .poll))

/-- in.en_ovf, MOP 0xA6 (R195). -/
def execInEnOvf (s : State) : Host.Outcome State Fault Refusal :=
  initStep s .enOvf ((s.setHw (s.hw.enableInterrupt .ovf)).setInitState .enCmp)

/-- in.en_cmp, MOP 0xA7: the second enable, and the completion of the owner's INIT (R196). Without an
INIT_OWNER it is a model error (R46). -/
def execInEnCmp (s : State) : Host.Outcome State Fault Refusal :=
  if s.initState = .enCmp ∧ s.lifecycle ≠ .faulted then
    match s.initOwner with
    | none => .next (s.enterModelError 0xA7 s.faultOwner)
    | some owner =>
      match s.context? owner with
      | none => .refused .unusedContext
      | some _ =>
        .next { ((s.setHw (s.hw.enableInterrupt .cmp)).setInitState .idle).modifyContext owner
            (fun c => { c with portState := .idle, response := some .done }) with
          lifecycle := .running }
  else .refused .notEnabled

end Sys2Proof.Machine
end

