-- ==== Sys2Proof/Machine/Reader.lean ====
section
/-!
DEFINITION. The reader's two steps (41_timestamp_resolver.md R141, R143): PERIOD is sampled first, the counter second,
and PORT_STATE[r] is the fence between them (R142).
-/

namespace Sys2Proof.Machine

/-- rd.sample_p, MOP 0x80: the acceptance step of NOW (R141). -/
def execRdSampleP (r : Byte) (s : State) : Host.Outcome State Fault Refusal := acceptNow r s

/-- The counter that GET_COUNTER answers, as C_LATCH[r] keeps it (R143, R145). -/
def State.sampleCounter (s : State) : Word := respCounter s.params.W (s.hw.getCounter s.params s.draw)

/-- The registers of a context after its second sample (R143). -/
def Context.deliverStamp (c : Context) (w : Nat) (p sample : Word) : Context :=
  { c with
    cLatch := some sample
    result := some (resolve w p sample)
    portState := .idle
    response := some (.timestamp (resolve w p sample)) }

/-- rd.sample_c, MOP 0x81 (R143). It has no failure case (R155); reading a P_LATCH[r] that holds no value is a model
error (R46). -/
def execRdSampleC (r : Byte) (s : State) : Host.Outcome State Fault Refusal :=
  match s.context? r with
  | none => .refused .unusedContext
  | some c =>
    if c.portState = .haveP ∧ s.lifecycle ≠ .faulted then
      match c.pLatch with
      | none => .next (s.enterModelError 0x81 r)
      | some p => .next (s.modifyContext r fun c => c.deliverStamp s.params.W p s.sampleCounter)
    else .refused .notEnabled

end Sys2Proof.Machine
end

