-- ==== Sys2Proof/Machine/Request.lean ====
section
/-!
DEFINITION. The upstream requests INIT, NOW and IRQ_SERVICE (30_encoding.md R82 to R84).
-/

namespace Sys2Proof.Machine

/-- INIT, URP 0x10 (R180). -/
def execInit (src : Byte) (s : State) : Host.Outcome State Fault Refusal := acceptInit src s

/-- NOW, URP 0x20 (R140). -/
def execNow (src : Byte) (s : State) : Host.Outcome State Fault Refusal := acceptNow src s

/-- IRQ_SERVICE, URP 0x30 (R170). -/
def execIrqService (src : Byte) (s : State) : Host.Outcome State Fault Refusal := acceptIrq src s

end Sys2Proof.Machine
end

