-- ==== Sys2Proof/Machine/Sequencer.lean ====
section
/-!
DEFINITION. The interrupt sequencer (42_interrupt_and_init.md R170 to R178): each event is checked, acknowledged, and
then counted.
-/

namespace Sys2Proof.Machine

/-- The flag that IS_EVENT_TRIGGERED answers (R172, R175). -/
def State.readFlag (s : State) (k : Kind) : Bool := respFlag (s.hw.isEventTriggered s.draw k)

/-- sq.enter, MOP 0x90: RTC_IRQ's acceptance of IRQ_SERVICE, enabled iff SEQ_STATE = IDLE and PERIOD_VALID = 1 (R170). -/
def execSqEnter (s : State) : Host.Outcome State Fault Refusal :=
  if s.periodValid then acceptIrq rtcIrq s else .refused .notEnabled

/-- sq.chk_ovf, MOP 0x91 (R172). -/
def execSqChkOvf (s : State) : Host.Outcome State Fault Refusal :=
  sequencerStep s .chkOvf (s.setSeqState (if s.readFlag .ovf then .ackOvf else .chkCmp))

/-- sq.ack_ovf, MOP 0x92 (R173). -/
def execSqAckOvf (s : State) : Host.Outcome State Fault Refusal :=
  sequencerStep s .ackOvf ((s.setHw (s.hw.resetEvent .ovf)).setSeqState .incOvf)

/-- sq.inc_ovf, MOP 0x93 (R174). -/
def execSqIncOvf (s : State) : Host.Outcome State Fault Refusal :=
  sequencerStep s .incOvf (s.increment.setSeqState .chkCmp)

/-- sq.chk_cmp, MOP 0x94 (R175). -/
def execSqChkCmp (s : State) : Host.Outcome State Fault Refusal :=
  sequencerStep s .chkCmp (s.setSeqState (if s.readFlag .cmp then .ackCmp else .exit))

/-- sq.ack_cmp, MOP 0x95 (R176). -/
def execSqAckCmp (s : State) : Host.Outcome State Fault Refusal :=
  sequencerStep s .ackCmp ((s.setHw (s.hw.resetEvent .cmp)).setSeqState .incCmp)

/-- sq.inc_cmp, MOP 0x96 (R177). -/
def execSqIncCmp (s : State) : Host.Outcome State Fault Refusal :=
  sequencerStep s .incCmp (s.increment.setSeqState .exit)

/-- sq.exit, MOP 0x97: the return from the service (R178, R247). -/
def execSqExit (s : State) : Host.Outcome State Fault Refusal :=
  sequencerStep s .exit (s.setSeqState .idle)

end Sys2Proof.Machine
end

