-- ==== Sys2Proof/Machine/Dispatch.lean ====
section
/-! DEFINITION. The dispatch: one arm per constructor of Instr, each one call of its meaning. -/

namespace Sys2Proof.Machine

def exec (i : Instr) (s : State) : Host.Outcome State Fault Refusal :=
  match i with
  | .init src => Sys2Proof.Machine.execInit src s
  | .now src => Sys2Proof.Machine.execNow src s
  | .irqService src => Sys2Proof.Machine.execIrqService src s
  | .getCounter => Sys2Proof.Machine.execGetCounter s
  | .setCompare slot data => Sys2Proof.Machine.execSetCompare slot data s
  | .clearCounter => Sys2Proof.Machine.execClearCounter s
  | .enableCounter => Sys2Proof.Machine.execEnableCounter s
  | .enableInterrupt k => Sys2Proof.Machine.execEnableInterrupt k s
  | .isEventTriggered k => Sys2Proof.Machine.execIsEventTriggered k s
  | .resetEvent k => Sys2Proof.Machine.execResetEvent k s
  | .rdSampleP r => Sys2Proof.Machine.execRdSampleP r s
  | .rdSampleC r => Sys2Proof.Machine.execRdSampleC r s
  | .sqEnter => Sys2Proof.Machine.execSqEnter s
  | .sqChkOvf => Sys2Proof.Machine.execSqChkOvf s
  | .sqAckOvf => Sys2Proof.Machine.execSqAckOvf s
  | .sqIncOvf => Sys2Proof.Machine.execSqIncOvf s
  | .sqChkCmp => Sys2Proof.Machine.execSqChkCmp s
  | .sqAckCmp => Sys2Proof.Machine.execSqAckCmp s
  | .sqIncCmp => Sys2Proof.Machine.execSqIncCmp s
  | .sqExit => Sys2Proof.Machine.execSqExit s
  | .inZero => Sys2Proof.Machine.execInZero s
  | .inSetcmp => Sys2Proof.Machine.execInSetcmp s
  | .inClear => Sys2Proof.Machine.execInClear s
  | .inStart => Sys2Proof.Machine.execInStart s
  | .inPoll => Sys2Proof.Machine.execInPoll s
  | .inEnOvf => Sys2Proof.Machine.execInEnOvf s
  | .inEnCmp => Sys2Proof.Machine.execInEnCmp s
  | .hwTick => Sys2Proof.Machine.execHwTick s
  | .hwClearApply => Sys2Proof.Machine.execHwClearApply s

end Sys2Proof.Machine
end

