-- ==== Sys2Proof/Machine/Schedule.lean ====
section
/-!
DEFINITION. A schedule's text (30_encoding.md R99, R100): the lines that an agent and a mnemonic stand for in the state in
which they are reached.
-/

namespace Sys2Proof.Machine

/-- `irq service` (R100): `irq enter`, then each sequencer step that the flags `ovf` and `cmp` enable, through `irq exit`. -/
def serviceLines (ovf cmp : Bool) : List Line :=
  [.mop 0 0x90, .mop 0 0x91] ++ (if ovf then [.mop 0 0x92, .mop 0 0x93] else []) ++
    [.mop 0 0x94] ++ (if cmp then [.mop 0 0x95, .mop 0 0x96] else []) ++ [.mop 0 0x97]

/-- `init run` (R100): the clear takes effect at once and the single poll reads 0. -/
def initRunLines : List Line :=
  [.mop 0 0xA1, .mop 0 0xA2, .mop 0 0xA3, .mop 0 0xA4, .mop 0 0xB1, .mop 0 0xA5, .mop 0 0xA6, .mop 0 0xA7]

/-- The id of SW(r); none for a number that no software context can have (R11, R90: 0 to 254). -/
def contextId (r : Nat) : Option Byte := if r < 255 then some (BitVec.ofNat 8 r) else none

/-- The lines that a line of text stands for; none for a pair that R99 and R100 do not list. `irq enter` is the step
sq.enter, as which IRQ_SERVICE is accepted, and so it is not enabled before in.zero (R170, R271). No other agent steps within
an expansion, so the flags that `irq service` finds are those its checks read. -/
def State.assemble (s : State) : Agent → Mnemonic → Option (List Line)
  | .sw r, .init => (contextId r).map fun q => [.urp q 0x10]
  | .sw r, .nowP => (contextId r).map fun q => [.urp q 0x20]
  | .sw r, .nowC => (contextId r).map fun q => [.mop q 0x81]
  | .sw r, .raw w => (contextId r).map fun q => [.urp q w]
  | .sw r, .now => (contextId r).map fun q => [.urp q 0x20, .mop q 0x81]
  | .irq, .enter => some [.mop 0 0x90]
  | .irq, .chkOvf => some [.mop 0 0x91]
  | .irq, .ackOvf => some [.mop 0 0x92]
  | .irq, .incOvf => some [.mop 0 0x93]
  | .irq, .chkCmp => some [.mop 0 0x94]
  | .irq, .ackCmp => some [.mop 0 0x95]
  | .irq, .incCmp => some [.mop 0 0x96]
  | .irq, .exit => some [.mop 0 0x97]
  | .irq, .service => some (serviceLines s.hw.event.ovf s.hw.event.cmp)
  | .init, .zero => some [.mop 0 0xA1]
  | .init, .setcmp => some [.mop 0 0xA2]
  | .init, .clear => some [.mop 0 0xA3]
  | .init, .start => some [.mop 0 0xA4]
  | .init, .poll => some [.mop 0 0xA5]
  | .init, .enOvf => some [.mop 0 0xA6]
  | .init, .enCmp => some [.mop 0 0xA7]
  | .init, .run => some initRunLines
  | .hw, .tick => some [.mop 0 0xB0]
  | .hw, .tickN n => if n = 0 then none else some (List.replicate n (.mop 0 0xB0))
  | .hw, .clearApply => some [.mop 0 0xB1]
  | _, _ => none

/-- A schedule's text as inputs, each line with the environment's draw `d`. -/
def scheduleOf (d : Draw) (text : List (Agent × Mnemonic)) : List Input := text.map fun x => .text x.1 x.2 d

end Sys2Proof.Machine
end

