-- ==== Sys2Proof/Machine/Fetch.lean ====
section
/-!
DEFINITION. From inputs to steps. The block has no program counter and fetches nothing (10_state.md R21): the next step
is chosen by the outside, as the next input of a schedule (30_encoding.md R99) or, when none is left, by the free
scheduler (00_scope.md R13), and the sequencers' state registers say which step codes are enabled (R16, R91).
-/

namespace Sys2Proof.Machine

/-- A line that names no operation: a reserved request word is issued all the same, and faults (R234); reserved step
and command words are refused by name (R92, R87). -/
def runRejected (l : Line) (r : Reject) (s : State) : Host.Outcome State Fault Refusal :=
  match l, r with
  | .urp src w, _ => acceptReserved src w s
  | _, .reservedStep _ => .refused .reservedStep
  | _, .reservedCommand _ => .refused .reservedCommand
  | _, _ => .refused .strayOperand

/-- One line, decoded and taken. -/
def runLine (l : Line) (s : State) : Host.Outcome State Fault Refusal :=
  match decode l with
  | .instr i => exec i s
  | .rejected r => runRejected l r s

/-- One line of text: the first line it stands for is taken, and the others are put before the rest of the schedule, so
that no other agent's step comes in between (R100). -/
def runText (a : Agent) (m : Mnemonic) (d : Draw) (rest : List Input) (s : State) :
    Host.Outcome State Fault Refusal :=
  match s.assemble a m with
  | some (l :: ls) => runLine l (s.take (ls.map (fun k => .line k d) ++ rest) d)
  | _ => .refused .noSuchLine

/-- The line of a free choice: a step code with the context of a reader step, or a request word with its id. -/
def lineOfChoice (c : Choice) : Line :=
  if c.isStep then .mop (if hiNibble c.word = 0x8 then c.src else 0) c.word else .urp c.src c.word

/-- R170's enabling condition on RTC_IRQ, which the free scheduler keeps: no IRQ_SERVICE before in.zero (R271). -/
def choiceEnabled (c : Choice) (s : State) : Bool :=
  !(lineOfChoice c == Line.urp rtcIrq 0x30 && !s.periodValid)

/-- A choice of the free scheduler: an enabled step is taken, any other choice is passed over (R13). -/
def runChoice (c : Choice) (s : State) : Host.Outcome State Fault Refusal :=
  let t := s.takeChoice c.draw
  if choiceEnabled c t then
    match runLine (lineOfChoice c) t with
    | .next u => .next u
    | .fault f => .fault f
    | .refused _ => .next t
  else .next t

/-- The next input of the schedule, or a free choice when none is left. -/
def runNext (s : State) : Host.Outcome State Fault Refusal :=
  match s.schedule with
  | [] => runChoice (Config.choice s.draws) s
  | .reset d :: rest => .next ((s.take rest s.draw).applyReset d)
  | .line l d :: rest => runLine l (s.take rest d)
  | .text a m d :: rest => runText a m d rest s

/-! ## Placing one line where the next step takes it -/

/-- The context of a reader step made ready: its port in the state that enables the step, and for rd.sample_c a
P_LATCH, as the rd.sample_p before it would have left (R141). -/
def State.readyPort (s : State) (r : Byte) (q : PortState) : State :=
  s.modifyContext r fun c =>
    { c with
      portState := q
      pLatch := if q = .haveP then some (c.pLatch.getD s.period) else c.pLatch }

/-- An init step made ready: INIT_STATE, and an INIT_OWNER for the steps that read it (R28, R29). -/
def State.readyInit (s : State) (q : InitState) : State :=
  { s with initState := q, initOwner := some (s.initOwner.getD 0) }

/-- The issuer of a request made ready (R140, R170, R180). -/
def State.readyIssuer (s : State) (src : Byte) : State :=
  if src = rtcIrq then s.setSeqState .idle else s.readyPort src .idle

/-- What takes the place of the program counter (R16, R21): the state register that selects the step, set so that the
step of `i` is the enabled one. A command needs the bench. -/
def State.select (s : State) : Instr → State
  | .init src => s.readyIssuer src
  | .now src => s.readyIssuer src
  | .irqService src => s.readyIssuer src
  | .getCounter => { s with bench := true }
  | .setCompare _ _ => { s with bench := true }
  | .clearCounter => { s with bench := true }
  | .enableCounter => { s with bench := true }
  | .enableInterrupt _ => { s with bench := true }
  | .isEventTriggered _ => { s with bench := true }
  | .resetEvent _ => { s with bench := true }
  | .rdSampleP r => s.readyIssuer r
  | .rdSampleC r => s.readyPort r .haveP
  | .sqEnter => { s with seqState := .idle, periodValid := true }
  | .sqChkOvf => s.setSeqState .chkOvf
  | .sqAckOvf => s.setSeqState .ackOvf
  | .sqIncOvf => s.setSeqState .incOvf
  | .sqChkCmp => s.setSeqState .chkCmp
  | .sqAckCmp => s.setSeqState .ackCmp
  | .sqIncCmp => s.setSeqState .incCmp
  | .sqExit => s.setSeqState .exit
  | .inZero => s.readyInit .zero
  | .inSetcmp => s.readyInit .setcmp
  | .inClear => s.readyInit .clear
  | .inStart => s.readyInit .start
  | .inPoll => s.readyInit .poll
  | .inEnOvf => s.readyInit .enOvf
  | .inEnCmp => s.readyInit .enCmp
  | .hwTick => s.setHw { s.hw with running := true }
  | .hwClearApply => s.setHw { s.hw with clearPending := true }

/-- The state with a line placed as the next input, and the step it names selected. -/
def State.place (s : State) (l : Line) : State :=
  let t := match decode l with
    | .instr i => s.select i
    | .rejected _ => s
  { t with schedule := .line l s.draw :: s.schedule }

end Sys2Proof.Machine
end

