-- ==== Sys2Proof/Machine/Step.lean ====
section
/-! DEFINITION. One step of the machine: one step of one agent (00_scope.md R13, R17), or the block's reset (R272). -/

namespace Sys2Proof.Machine

/-- The step function. -/
def step (s : State) : Host.Outcome State Fault Refusal := runNext s

/-- The state with the instruction whose table number is `w` placed where the next step takes it. -/
def State.withFetchWord (s : State) (nbits w : Nat) : State := s.place (lineOfTable nbits w)

end Sys2Proof.Machine
end

