-- ==== Sys2Proof/Safety.lean ====
section
/-!
DEFINITION. What the statements are about: the invariant of every state, the runs of the block's agents, the premises
of the correctness laws (70_reset_and_hazards.md R274, R282, R283) and the fairness the spec assumes (R118, R171, R183).
-/

namespace Sys2Proof.Safety

open Sys2Proof.Machine

/-! ## The invariant of every state -/

/-- A context's latches are in range, and a port that waits for its second sample holds the first (R31 to R33). -/
structure ContextOk (p : Params) (c : Context) : Prop where
  latched : c.portState = .haveP → c.pLatch.isSome = true
  sample : ∀ v, c.cLatch = some v → v.toNat < 2 ^ p.W

/-- What holds at reset and in every state a step leaves, whatever the inputs are. -/
structure Inv (s : State) : Prop where
  /-- The parameters are in the ranges of R6 and R10. -/
  params : s.params.valid = true
  /-- `1 <= N_READERS <= 255` (R11). -/
  readers : 1 ≤ s.contexts.length ∧ s.contexts.length ≤ 255
  /-- COUNTER and CC are W bits wide (R35, R38). -/
  counterWidth : s.hw.counter.toNat < 2 ^ s.params.W
  ccWidth : s.hw.cc.toNat < 2 ^ s.params.W
  contextsOk : ∀ c ∈ s.contexts, ContextOk s.params c
  /-- While t_ghost has a value, COUNTER = t_ghost mod 2^W (R43). -/
  ghostTick : ∀ t, s.tGhost = some t → s.hw.counter.toNat = t % 2 ^ s.params.W
  /-- PERIOD = incs_ghost mod 2^32 (R43). -/
  ghostIncs : s.period.toNat = s.incsGhost % 2 ^ 32
  /-- FAULT_CAUSE is NONE exactly when no fault was raised (R25, R236). -/
  cause : s.faultCause = .none ↔ s.lifecycle ≠ .faulted
  /-- Nothing has begun while UNINIT (R271). -/
  uninit : s.lifecycle = .uninit →
    s.initState = .idle ∧ s.periodValid = false ∧ ∀ c ∈ s.contexts, c.portState = .idle
  /-- INITIALIZING is the time in which the init sequencer runs and no NOW is accepted (R24, R28). -/
  initializing : s.lifecycle = .initializing →
    s.initState ≠ .idle ∧ ∀ r c, s.contexts[r]? = some c →
      c.portState ≠ .haveP ∧ (c.portState = .initWait → ∃ o, s.initOwner = some o ∧ o.toNat = r)
  /-- RUNNING is the time after it: the Period Counter exists and no INIT waits (R23, R24). -/
  running : s.lifecycle = .running →
    s.initState = .idle ∧ s.periodValid = true ∧ ∀ c ∈ s.contexts, c.portState ≠ .initWait
  /-- While the init sequencer runs, INIT_OWNER is a context that waits for it (R29, R31, R46). -/
  owner : s.initState ≠ .idle →
    ∃ o c, s.initOwner = some o ∧ s.context? o = some c ∧ c.portState = .initWait
  /-- The sequencer runs only once in.zero has created the Period Counter (R170). -/
  sequencer : s.seqState ≠ .idle → s.periodValid = true
  /-- Every init step after in.zero finds the Period Counter created (R181, R190). -/
  zeroed : s.initState ≠ .idle → s.initState ≠ .zero → s.periodValid = true

/-! ## Runs of the block's agents -/

/-- The steps of the block's agents and the requests of its contexts (R13), as against a command alone on a bench. -/
def isAgentStep : Instr → Bool
  | .init _ => true
  | .now _ => true
  | .irqService _ => true
  | .getCounter => false
  | .setCompare _ _ => false
  | .clearCounter => false
  | .enableCounter => false
  | .enableInterrupt _ => false
  | .isEventTriggered _ => false
  | .resetEvent _ => false
  | .rdSampleP _ => true
  | .rdSampleC _ => true
  | .sqEnter => true
  | .sqChkOvf => true
  | .sqAckOvf => true
  | .sqIncOvf => true
  | .sqChkCmp => true
  | .sqAckCmp => true
  | .sqIncCmp => true
  | .sqExit => true
  | .inZero => true
  | .inSetcmp => true
  | .inClear => true
  | .inStart => true
  | .inPoll => true
  | .inEnOvf => true
  | .inEnCmp => true
  | .hwTick => true
  | .hwClearApply => true

/-- One step of an agent, with any draw of the environment (R12, R13). -/
def Takes (i : Instr) (s t : State) : Prop :=
  isAgentStep i = true ∧ ∃ d, exec i { s with draw := d } = .next t

/-- The first `n` steps of an interleaving (R67): `label k` leads from `state k` to `state (k + 1)`. -/
def IsRun (state : Nat → State) (label : Nat → Instr) (n : Nat) : Prop :=
  ∀ k < n, Takes (label k) (state k) (state (k + 1))

/-- An unending interleaving. -/
def IsEndlessRun (state : Nat → State) (label : Nat → Instr) : Prop :=
  ∀ k, Takes (label k) (state k) (state (k + 1))

/-- A fixed sequence of instructions, stopping at the first that does not answer a next state (R100). -/
def runAll : List Instr → State → Host.Outcome State Fault Refusal
  | [], s => .next s
  | i :: is, s =>
    match exec i s with
    | .next t => runAll is t
    | .fault f => .fault f
    | .refused r => .refused r

/-- The steps of one interrupt service, by the flags its checks read (R100, R179). -/
def serviceSteps (ovf cmp : Bool) : List Instr :=
  [.sqEnter, .sqChkOvf] ++ (if ovf then [.sqAckOvf, .sqIncOvf] else []) ++
    [.sqChkCmp] ++ (if cmp then [.sqAckCmp, .sqIncCmp] else []) ++ [.sqExit]

/-- An init from acceptance to completion (R197): `m` polls read the residual count, the clear applies, a poll reads 0,
and `a` and `b` ticks come before and after the first enable. -/
def initSteps (r : Byte) (m a b : Nat) : List Instr :=
  [.init r, .inZero, .inSetcmp, .inClear, .inStart] ++ List.replicate m .inPoll ++
    [.hwClearApply, .inPoll] ++ List.replicate a .hwTick ++ [.inEnOvf] ++ List.replicate b .hwTick ++ [.inEnCmp]

/-! ## Launch premises and lost events -/

/-- CleanLaunch (R274): at reset, RUNNING = 0 and no flag is set. -/
def CleanLaunch (s : State) : Prop :=
  s.hw.running = false ∧ s.hw.event = ⟨false, false⟩

/-- PromptClear (R274), of a run whose step `k` is the clear's effect and whose init completes at step `m`: it comes after
in.clear, before every tick that follows in.start, and before the poll that ends the poll loop. -/
structure PromptClear (state : Nat → State) (label : Nat → Instr) (k m : Nat) : Prop where
  clears : label k = .hwClearApply
  completes : k < m
  afterClear : ∃ j < k, label j = .inClear
  beforeTicks : ∀ i j, i < j → j < m → label i = .inStart → label j = .hwTick → k < j
  beforeLastPoll : ∀ j < m, label j = .inPoll → (state (j + 1)).initState ≠ .poll → k < j

/-- The ticks among the steps after `k` and before `n`. -/
def ticksBetween (label : Nat → Instr) (k : Nat) : Nat → Nat
  | 0 => 0
  | n + 1 => ticksBetween label k n + if k < n ∧ label n = .hwTick then 1 else 0

/-- FastInit (R274): fewer than H ticks pass between the clear's effect at `k` and in.en_cmp at `m`. -/
def FastInit (w : Nat) (label : Nat → Instr) (k m : Nat) : Prop :=
  ticksBetween label k m < halfTicks w

/-- No agent has stepped since reset (R270), whatever the parameters and the number of contexts are. -/
def AtReset (s : State) : Prop :=
  s.params.valid = true ∧ (∀ c ∈ s.contexts, c = Context.atReset) ∧ s.periodValid = false ∧ s.lifecycle = .uninit ∧
    s.initState = .idle ∧ s.seqState = .idle ∧ s.hw.clearPending = false ∧ s.hw.inten = ⟨false, false⟩ ∧
    s.tGhost = none

/-- Events raised and not yet counted: flags that are set, and an acknowledgment whose increment is to come (R45). -/
def uncounted (s : State) : Nat :=
  s.hw.event.ovf.toNat + s.hw.event.cmp.toNat + (decide (s.seqState = .incOvf)).toNat +
    (decide (s.seqState = .incCmp)).toNat

/-- The step loses no event (R282): a tick that raises one finds its flag clear. -/
def LosesNoEvent (i : Instr) (s : State) : Prop :=
  i = .hwTick →
    (overflows s.params s.hw.counter = true → s.hw.event.ovf = false) ∧
    (matchesCompare s.hw (trunc s.params.W (s.hw.counter + 1)) = true → s.hw.event.cmp = false)

/-- The clock is running and every event since the clear is counted or is waiting to be (R44, R119): `t` ticks have
passed, and the half-cycle index `t / H` is the number of increments plus the events not yet counted. -/
structure Accounted (s : State) (t : Nat) : Prop where
  params : s.params.valid = true
  ticks : s.tGhost = some t
  counter : s.hw.counter.toNat = t % 2 ^ s.params.W
  armed : s.hw.cc = half s.params.W
  latching : ∀ k, mayLatch s.params s.hw k = true
  settled : s.hw.clearPending = false
  initDone : s.initState = .idle
  begun : s.lifecycle ≠ .uninit
  checkedOvf : s.seqState = .ackOvf → s.hw.event.ovf = true
  checkedCmp : s.seqState = .ackCmp → s.hw.event.cmp = true
  period : s.period.toNat = s.incsGhost % 2 ^ 32
  account : s.incsGhost + uncounted s = t / halfTicks s.params.W

/-- Quiescent (R44): no flag is pending and no increment is to come. -/
def Quiescent (s : State) : Prop :=
  s.hw.event = ⟨false, false⟩ ∧ (s.seqState = .idle ∨ s.seqState = .chkOvf)

/-- At most `L` ticks pass between the tick that raises an event and the INCREMENT that counts it (R283): the k-th event,
raised at `k * H`, is counted in every state more than `L` ticks later. -/
def LatencyAtMost (L : Nat) (s : State) : Prop :=
  ∀ t k, s.tGhost = some t → k * halfTicks s.params.W + L < t → k ≤ s.incsGhost

/-- Context `r` is between its two samples, with PERIOD sampled as `p`, and `T` ticks have passed since the last clear:
the premise of the exactness condition (R150). -/
structure Sampling (s : State) (r : Byte) (c : Context) (p : Word) (T : Nat) : Prop where
  params : s.params.valid = true
  context : s.context? r = some c
  haveP : c.portState = .haveP
  latch : c.pLatch = some p
  live : s.lifecycle ≠ .faulted
  ticks : s.tGhost = some T
  counter : s.hw.counter.toNat = T % 2 ^ s.params.W

/-- The lag `d = h - p` (R150). -/
def lag (w : Nat) (p : Word) (T : Nat) : Int := (T / halfTicks w : Nat) - (p.toNat : Int)

/-! ## Fairness (92_eei_decisions.md D7) -/

/-- While RUNNING = 1, HW keeps taking hw.tick (R118). -/
def TickFair (state : Nat → State) (label : Nat → Instr) : Prop :=
  ∀ n, (state n).hw.running = true → ∃ m ≥ n, label m = .hwTick

/-- A pending clear eventually applies (R118). -/
def ClearFair (state : Nat → State) (label : Nat → Instr) : Prop :=
  ∀ n, (state n).hw.clearPending = true → ∃ m ≥ n, label m = .hwClearApply

/-- A step of INITSEQ (R183). -/
def isInitStep : Instr → Bool
  | .init _ => false
  | .now _ => false
  | .irqService _ => false
  | .getCounter => false
  | .setCompare _ _ => false
  | .clearCounter => false
  | .enableCounter => false
  | .enableInterrupt _ => false
  | .isEventTriggered _ => false
  | .resetEvent _ => false
  | .rdSampleP _ => false
  | .rdSampleC _ => false
  | .sqEnter => false
  | .sqChkOvf => false
  | .sqAckOvf => false
  | .sqIncOvf => false
  | .sqChkCmp => false
  | .sqAckCmp => false
  | .sqIncCmp => false
  | .sqExit => false
  | .inZero => true
  | .inSetcmp => true
  | .inClear => true
  | .inStart => true
  | .inPoll => true
  | .inEnOvf => true
  | .inEnCmp => true
  | .hwTick => false
  | .hwClearApply => false

/-- INITSEQ eventually takes its enabled step (R183). -/
def InitFair (state : Nat → State) (label : Nat → Instr) : Prop :=
  ∀ n, (state n).initState ≠ .idle → ∃ m ≥ n, isInitStep (label m) = true

/-- A step of an entered service (R171). -/
def isServiceStep : Instr → Bool
  | .init _ => false
  | .now _ => false
  | .irqService _ => false
  | .getCounter => false
  | .setCompare _ _ => false
  | .clearCounter => false
  | .enableCounter => false
  | .enableInterrupt _ => false
  | .isEventTriggered _ => false
  | .resetEvent _ => false
  | .rdSampleP _ => false
  | .rdSampleC _ => false
  | .sqEnter => false
  | .sqChkOvf => true
  | .sqAckOvf => true
  | .sqIncOvf => true
  | .sqChkCmp => true
  | .sqAckCmp => true
  | .sqIncCmp => true
  | .sqExit => true
  | .inZero => false
  | .inSetcmp => false
  | .inClear => false
  | .inStart => false
  | .inPoll => false
  | .inEnOvf => false
  | .inEnCmp => false
  | .hwTick => false
  | .hwClearApply => false

/-- While LINE = 1 and the sequencer is idle, RTC_IRQ eventually enters; once entered, the sequencer takes its steps
(R171, R245). -/
def DeliveryFair (state : Nat → State) (label : Nat → Instr) : Prop :=
  (∀ n, (state n).line = true → (state n).seqState = .idle → (state n).periodValid = true →
    ∃ m ≥ n, label m = .sqEnter ∨ label m = .irqService rtcIrq) ∧
  (∀ n, (state n).seqState ≠ .idle → ∃ m ≥ n, isServiceStep (label m) = true)

/-! ## Timing figures (R287), informative -/

/-- One counter cycle in seconds, `2^W / F`, rounded down. -/
def cycleSeconds (p : Params) : Nat := 2 ^ p.W / p.F

/-- The wrap horizon in seconds, `2^32 * 2^(W-1) / F`, rounded down. -/
def wrapHorizonSeconds (p : Params) : Nat := 2 ^ 32 * halfTicks p.W / p.F

end Sys2Proof.Safety
end

