-- ==== Sys2Proof/Certificates/Slice0/Obligations.lean ====
section
/-!
DEFINITION. The statements about the model, from the numbered rules of spec/. A statement about a next state gives the
whole next state as an update of the state before, so that it is the frame as well: what the update does not name is
unchanged. The block has no memory (20_memory.md R60), so there is no byte of memory to speak of.
-/

open Sys2Proof Sys2Proof.Machine Sys2Proof.Safety

/-! ## From lines to steps -/

/-- A line that decodes to an instruction is taken by running that instruction, after the line is taken off the
schedule and the environment's draw for the step is made (R13, R17, R99). A line of a schedule's text stands for the
lines of its expansion, with nothing in between (R100): a step on it is the step on those lines. -/
def Obligations.StepRunsTheDecodedInstruction : Prop :=
  (∀ (s : State) (l : Line) (d : Draw) (rest : List Input) (i : Instr),
    s.schedule = .line l d :: rest → decode l = .instr i →
    step s = exec i { s with schedule := rest, draw := d }) ∧
  ∀ (s : State) (a : Agent) (m : Mnemonic) (d : Draw) (rest : List Input) (ls : List Line),
    s.schedule = .text a m d :: rest → s.assemble a m = some ls →
    ls ≠ [] ∧ step s = step { s with schedule := ls.map (fun l => .line l d) ++ rest }

/-- `accept(src, w)` (R234): a word other than 0x10, 0x20 and 0x30 faults ILLEGAL_COMMAND from a software context with
an idle port and from RTC_IRQ with an idle sequencer, in every LIFECYCLE state but FAULTED; otherwise it is not enabled;
the three defined words are INIT, NOW and IRQ_SERVICE. -/
def Obligations.ReservedRequestFaultsIllegalCommand : Prop :=
  ∀ (s : State) (src w : Byte) (d : Draw) (rest : List Input), s.schedule = .line (.urp src w) d :: rest →
    let s' : State := { s with schedule := rest, draw := d }
    let enabled := s.lifecycle ≠ .faulted ∧
      ((src = rtcIrq ∧ s.seqState = .idle) ∨ (src ≠ rtcIrq ∧ ∃ c, s.context? src = some c ∧ c.portState = .idle))
    (w ≠ 0x10 → w ≠ 0x20 → w ≠ 0x30 →
      (enabled → step s = .next
        { s' with lifecycle := .faulted, faultCause := .illegalCommand, faultOp := w, faultSrc := src }) ∧
      (¬enabled → ∃ r, step s = .refused r)) ∧
    (w = 0x10 → step s = exec (.init src) s') ∧
    (w = 0x20 → step s = exec (.now src) s') ∧
    (w = 0x30 → step s = exec (.irqService src) s')

/-- A reserved step code or command word names no step and is refused by name (R92, R87), and so is a line of text that
names none (R99, R100): a context number above 254, `hw tick 0`, or a pair that is not listed. -/
def Obligations.ReservedStepsAndCommandsAreRefused : Prop :=
  (∀ (s : State) (ctx w : Byte) (d : Draw) (rest : List Input), s.schedule = .line (.mop ctx w) d :: rest →
    w.toNat ∉ [0x80, 0x81, 0x90, 0x91, 0x92, 0x93, 0x94, 0x95, 0x96, 0x97, 0xA1, 0xA2, 0xA3, 0xA4, 0xA5, 0xA6, 0xA7,
      0xB0, 0xB1] → step s = .refused .reservedStep) ∧
  (∀ (s : State) (w : Byte) (data : Word) (d : Draw) (rest : List Input), s.schedule = .line (.pcp w data) d :: rest →
    ¬(0x20 ≤ w.toNat ∧ w.toNat ≤ 0x2F) →
    w.toNat ∉ [0x10, 0x30, 0x40, 0x50, 0x51, 0x60, 0x61, 0x70, 0x71] → step s = .refused .reservedCommand) ∧
  (∀ (s : State) (a : Agent) (m : Mnemonic) (d : Draw) (rest : List Input), s.schedule = .text a m d :: rest →
    s.assemble a m = none → step s = .refused .noSuchLine) ∧
  (∀ (s : State) (r : Nat) (m : Mnemonic), 255 ≤ r → s.assemble (.sw r) m = none) ∧
  ∀ s : State, s.assemble .hw (.tickN 0) = none

/-- The model's free scheduler (R13; notes/assumptions/4.md): with no input left a step uses the next choice. Every step
of every agent is the line of some choice; a choice whose step is enabled is taken, one whose step is not is passed
over, and R170's enabling condition keeps IRQ_SERVICE from running before in.zero. -/
def Obligations.FreeSchedulerTakesOnlyEnabledSteps : Prop :=
  (∀ s : State, s.schedule = [] → step s = runChoice (Config.choice s.draws) s) ∧
  (∀ i : Instr, isAgentStep i = true → ∃ c : Choice, decode (lineOfChoice c) = .instr i) ∧
  ∀ (s : State) (c : Choice) (i : Instr), decode (lineOfChoice c) = .instr i →
    let s' : State := { s with draws := s.draws + 1, draw := c.draw }
    (∀ t, (i = .irqService rtcIrq → s.periodValid = true) → exec i s' = .next t → runChoice c s = .next t) ∧
    (∀ r, exec i s' = .refused r → runChoice c s = .next s') ∧
    (i = .irqService rtcIrq → s.periodValid = false → runChoice c s = .next s')

/-- Placing an instruction where the next step takes it selects its step and changes nothing that the step then does
(notes/assumptions/9.md). -/
def Obligations.StepRunsThePlacedInstruction : Prop :=
  ∀ (s : State) (i : Instr), step (s.place (encode i)) = exec i { s.select i with schedule := s.schedule }

/-- An id from N_READERS to 0xFE is never issued (R90): a request or a reader step with one is refused. -/
def Obligations.UnusedContextsAreRefused : Prop :=
  ∀ (s : State) (i : Instr), s.lifecycle ≠ .faulted → i.wellFormed s.nReaders = false →
    exec i s = .refused .unusedContext

/-! ## Decoding and encoding -/

/-- Words written out from the spec's tables decode to what they stand for (R82 to R84, R87, R92). -/
def Obligations.SpecWordsDecode : Prop :=
  decode (.urp 0x05 0b00010000) = .instr (.init 0x05) ∧
  decode (.urp 0x05 0b00100000) = .instr (.now 0x05) ∧
  decode (.urp 0xFF 0b00110000) = .instr (.irqService 0xFF) ∧
  decode (.pcp 0b00010000 0) = .instr .getCounter ∧
  decode (.pcp 0b00100011 0x80000000) = .instr (.setCompare 3 0x80000000) ∧
  decode (.pcp 0b01110001 0) = .instr (.resetEvent .cmp) ∧
  decode (.mop 0x01 0b10000001) = .instr (.rdSampleC 0x01) ∧
  decode (.mop 0 0b10010111) = .instr .sqExit ∧
  decode (.mop 0 0b10100010) = .instr .inSetcmp ∧
  decode (.mop 0 0b10110001) = .instr .hwClearApply

/-- Decoding an encoded instruction gives it back, for every instruction and every value of its fields. -/
def Obligations.DecodeOfEncodeIsIdentity : Prop :=
  ∀ i : Instr, decode (encode i) = .instr i

/-- A line decodes to an instruction only if it is that instruction's encoding: no bit of a line is dropped. -/
def Obligations.DecodedLineIsTheEncoding : Prop :=
  ∀ (l : Line) (i : Instr), decode l = .instr i → encode i = l

/-- Decoding is total, and on each port the words it accepts are the listed ones (R87, R92, R97): the three request words
from any id; the nineteen step codes, those of the reader with any id and the others with id 0; the command words, with
any DATA for SET_COMPARE and DATA = 0 for the others (R86). A word that is not listed is rejected as reserved. R91 and
R92 give a step code no id: that one stands beside a reader's step code, and 0 beside any other, is the model's own way
of writing lines, and so is it that another id, or DATA where R86 has none, is rejected
(DESIGN CHOICE, notes/assumptions/14.md and 15.md). -/
def Obligations.DecoderAcceptsExactlyTheListedWords : Prop :=
  (∀ src w : Byte, (∃ i, decode (.urp src w) = .instr i) ↔ w.toNat ∈ [0x10, 0x20, 0x30]) ∧
  (∀ src w : Byte, (∃ i, decode (.urp src w) = .instr i) ∨ decode (.urp src w) = .rejected (.reservedRequest w)) ∧
  (let steps := [0x80, 0x81, 0x90, 0x91, 0x92, 0x93, 0x94, 0x95, 0x96, 0x97, 0xA1, 0xA2, 0xA3, 0xA4, 0xA5, 0xA6, 0xA7,
      0xB0, 0xB1]
    ∀ ctx w : Byte,
      ((∃ i, decode (.mop ctx w) = .instr i) ↔ w.toNat ∈ steps ∧ (w.toNat = 0x80 ∨ w.toNat = 0x81 ∨ ctx = 0)) ∧
      (decode (.mop ctx w) = .rejected (.reservedStep w) ↔ w.toNat ∉ steps)) ∧
  (let commands := [0x10, 0x30, 0x40, 0x50, 0x51, 0x60, 0x61, 0x70, 0x71]
    ∀ (w : Byte) (data : Word),
      ((∃ i, decode (.pcp w data) = .instr i) ↔
        (0x20 ≤ w.toNat ∧ w.toNat ≤ 0x2F) ∨ (w.toNat ∈ commands ∧ data = 0)) ∧
      (decode (.pcp w data) = .rejected (.reservedCommand w) ↔
        ¬(0x20 ≤ w.toNat ∧ w.toNat ≤ 0x2F) ∧ w.toNat ∉ commands))

/-! ## The reader -/

/-- NOW's acceptance and the step rd.sample_p, which is that acceptance (R140, R141). -/
def Obligations.NowSamplesPeriodFirst : Prop :=
  ∀ (s : State) (r : Byte) (i : Instr), i = .now r ∨ i = .rdSampleP r →
    (s.lifecycle ≠ .faulted → r = rtcIrq → s.seqState = .idle →
      exec i s = .next
        { s with lifecycle := .faulted, faultCause := .illegalContext, faultOp := 0x20, faultSrc := r }) ∧
    (∀ c, s.lifecycle ≠ .faulted → r ≠ rtcIrq → s.context? r = some c → c.portState = .idle →
      (s.lifecycle ≠ .running → exec i s = .next
        { s with lifecycle := .faulted, faultCause := .notInitialized, faultOp := 0x20, faultSrc := r }) ∧
      (s.lifecycle = .running → exec i s = .next
        { s with contexts := s.contexts.set r.toNat ({ c with pLatch := some s.period, portState := .haveP } : Context) })) ∧
    (s.lifecycle = .faulted ∨ (r = rtcIrq ∧ s.seqState ≠ .idle) ∨
        (r ≠ rtcIrq ∧ ∀ c, s.context? r = some c → c.portState ≠ .idle) →
      ∃ f, exec i s = .refused f)

/-- rd.sample_c (R143, R145): the counter's low W bits are latched, composed with the latched PERIOD and delivered, and
no draw of the response's upper bits matters. -/
def Obligations.SampleCounterDeliversTheComposition : Prop :=
  ∀ (s : State) (r : Byte),
    (∀ c p, s.context? r = some c → c.portState = .haveP → c.pLatch = some p → s.lifecycle ≠ .faulted →
      let sample := trunc s.params.W s.hw.counter
      let c' : Context := { c with
        cLatch := some sample
        result := some (resolve s.params.W p sample)
        portState := .idle
        response := some (.timestamp (resolve s.params.W p sample)) }
      exec (.rdSampleC r) s = .next { s with contexts := s.contexts.set r.toNat c' }) ∧
    (s.lifecycle = .faulted ∨ (∀ c, s.context? r = some c → c.portState ≠ .haveP) →
      ∃ f, exec (.rdSampleC r) s = .refused f)

/-- The composition's equivalent form (R146) and the timestamp's layout (R95): the low W-1 bits are the counter's, and the
field above them is the period index, p plus the exclusive or of p's parity and the counter's top bit, at most 2^32. -/
def Obligations.CompositionEquivalentForm : Prop :=
  ∀ (w : Nat) (p c : Word), 2 ≤ w → w ≤ 32 → c.toNat < 2 ^ w →
    let index := p.toNat + (p.getLsbD 0 ^^ c.getLsbD (w - 1)).toNat
    (resolve w p c).toNat = index * halfTicks w + c.toNat % halfTicks w ∧
    (resolve w p c).toNat % 2 ^ (w - 1) = c.toNat % 2 ^ (w - 1) ∧
    (resolve w p c).toNat / 2 ^ (w - 1) = index ∧ index ≤ 2 ^ 32

/-- The 64-bit sum never wraps (R147): the two terms of R144, added as natural numbers, are the result and at most
`2^32 * H + (H - 1)`, below `2^64`, and the bound is reached at `p = 0xFFFFFFFF`, `c = H - 1`. -/
def Obligations.CompositionNeverOverflows : Prop :=
  ∀ w : Nat, 2 ≤ w → w ≤ 32 →
    (∀ p c : Word, c.toNat < 2 ^ w →
      let sum := p.toNat * halfTicks w + (c.toNat ^^^ (p.toNat % 2 * halfTicks w))
      (resolve w p c).toNat = sum ∧ sum ≤ 2 ^ 32 * halfTicks w + (halfTicks w - 1)) ∧
    2 ^ 32 * halfTicks w + (halfTicks w - 1) < 2 ^ 64 ∧
    (resolve w 0xFFFFFFFF (half w - 1)).toNat = 2 ^ 32 * halfTicks w + (halfTicks w - 1)

/-- The exactness condition (R150): a NOW whose second sample is taken at tick `T` with lag `d` delivers
`T - 2*H*floor(d/2)`, and so exactly `T` iff `d` is 0 or 1. -/
def Obligations.ResultIsExactIffLagIsZeroOrOne : Prop :=
  ∀ (s : State) (r : Byte) (c : Context) (p : Word) (T : Nat), Sampling s r c p T →
    ∃ t c' v, exec (.rdSampleC r) s = .next t ∧ t.context? r = some c' ∧ c'.result = some v ∧
      (v.toNat : Int) = T - 2 * halfTicks s.params.W * (lag s.params.W p T / 2) ∧
      (v.toNat = T ↔ lag s.params.W p T = 0 ∨ lag s.params.W p T = 1)

/-- Monotonicity (R152): two NOWs, of the same or different contexts, whose second samples come at ticks `T1 <= T2` and
whose lags are 0 or 1, deliver `T1` and `T2`: the results do not decrease. -/
def Obligations.TimestampsDoNotDecreaseWithinLag : Prop :=
  ∀ (s₁ s₂ : State) (r₁ r₂ : Byte) (c₁ c₂ : Context) (p₁ p₂ : Word) (T₁ T₂ : Nat),
    s₁.params = s₂.params → Sampling s₁ r₁ c₁ p₁ T₁ → Sampling s₂ r₂ c₂ p₂ T₂ → T₁ ≤ T₂ →
    (lag s₁.params.W p₁ T₁ = 0 ∨ lag s₁.params.W p₁ T₁ = 1) →
    (lag s₂.params.W p₂ T₂ = 0 ∨ lag s₂.params.W p₂ T₂ = 1) →
    ∃ t₁ t₂ c₁' c₂' v₁ v₂, exec (.rdSampleC r₁) s₁ = .next t₁ ∧ t₁.context? r₁ = some c₁' ∧ c₁'.result = some v₁ ∧
      exec (.rdSampleC r₂) s₂ = .next t₂ ∧ t₂.context? r₂ = some c₂' ∧ c₂'.result = some v₂ ∧
      v₁.toNat = T₁ ∧ v₂.toNat = T₂ ∧ v₁.toNat ≤ v₂.toNat

/-- Readers do not interfere (R154): a NOW's two steps leave every other context's registers alone, and what they do to
their own context's does not depend on the others'. -/
def Obligations.ReadersDoNotInterfere : Prop :=
  ∀ (s t : State) (i : Instr) (r : Byte), i = .now r ∨ i = .rdSampleP r ∨ i = .rdSampleC r → exec i s = .next t →
    (∀ q : Byte, q ≠ r → t.context? q = s.context? q) ∧
    ∀ cs : List Context, ({ s with contexts := cs } : State).context? r = s.context? r →
      ∃ t', exec i { s with contexts := cs } = .next t' ∧ t'.context? r = t.context? r ∧
        { t' with contexts := t.contexts } = t

/-- An accepted NOW completes (R155): while a context holds its first sample, rd.sample_c is enabled and does not fault,
and no other step of any agent disturbs that context's registers. -/
def Obligations.AcceptedNowCompletes : Prop :=
  ∀ (s : State) (r : Byte) (c : Context), Safety.Inv s → s.lifecycle ≠ .faulted → s.context? r = some c →
    c.portState = .haveP →
    (∃ t, exec (.rdSampleC r) s = .next t ∧ t.lifecycle ≠ .faulted) ∧
    ∀ (i : Instr) (t : State), exec i s = .next t → i ≠ .rdSampleC r → t.context? r = some c

/-! ## The interrupt sequencer -/

/-- IRQ_SERVICE and sq.enter (R170): from RTC_IRQ with an idle sequencer and PERIOD_VALID = 1 the service is entered;
a software context faults ILLEGAL_CONTEXT; entry while the sequencer is not idle is not enabled. A schedule's `irq enter`,
alone or as the start of `irq service`, enters under these conditions and is refused without them (R99, R100), so RTC_IRQ
takes no step before in.zero (R271). -/
def Obligations.InterruptEntry : Prop :=
  (∀ s : State, s.lifecycle ≠ .faulted → s.seqState = .idle → s.periodValid = true →
    exec (.irqService rtcIrq) s = .next { s with seqState := .chkOvf } ∧
    exec .sqEnter s = .next { s with seqState := .chkOvf }) ∧
  (∀ s : State, s.lifecycle = .faulted ∨ s.seqState ≠ .idle →
    (∃ r, exec (.irqService rtcIrq) s = .refused r) ∧ ∃ r, exec .sqEnter s = .refused r) ∧
  (∀ s : State, s.periodValid = false → exec .sqEnter s = .refused .notEnabled) ∧
  (∀ (s : State) (r : Byte) (c : Context), s.lifecycle ≠ .faulted → r ≠ rtcIrq → s.context? r = some c →
    c.portState = .idle → exec (.irqService r) s = .next
      { s with lifecycle := .faulted, faultCause := .illegalContext, faultOp := 0x30, faultSrc := r }) ∧
  (∀ (s : State) (d : Draw) (rest : List Input), s.schedule = .text .irq .enter d :: rest →
    s.lifecycle ≠ .faulted → s.seqState = .idle → s.periodValid = true →
    step s = .next { s with schedule := rest, draw := d, seqState := .chkOvf }) ∧
  (∀ (s : State) (m : Mnemonic) (d : Draw) (rest : List Input), m = .enter ∨ m = .service →
    s.schedule = .text .irq m d :: rest → s.lifecycle = .faulted ∨ s.seqState ≠ .idle ∨ s.periodValid = false →
    step s = .refused .notEnabled)

/-- IRQ_SERVICE before in.zero (R231): in an environment that lets RTC_IRQ issue it then, it faults NOT_INITIALIZED and
records FAULT_OP = 0x30, FAULT_SRC = 0xFF (notes/assumptions/11.md). -/
def Obligations.EarlyInterruptFaultsNotInitialized : Prop :=
  ∀ s : State, s.lifecycle ≠ .faulted → s.seqState = .idle → s.periodValid = false →
    exec (.irqService rtcIrq) s = .next
      { s with lifecycle := .faulted, faultCause := .notInitialized, faultOp := 0x30, faultSrc := 0xFF }

/-- sq.chk_ovf and sq.chk_cmp (R172, R175): OVF is checked first; a set flag leads to its acknowledgment, whatever its
enable holds, and a check writes nothing else. -/
def Obligations.ChecksReadTheFlags : Prop :=
  ∀ s : State,
    (s.lifecycle ≠ .faulted → s.seqState = .chkOvf → exec .sqChkOvf s = .next
      { s with seqState := if s.hw.event.ovf = true then .ackOvf else .chkCmp }) ∧
    (s.lifecycle ≠ .faulted → s.seqState = .chkCmp → exec .sqChkCmp s = .next
      { s with seqState := if s.hw.event.cmp = true then .ackCmp else .exit }) ∧
    (s.lifecycle = .faulted ∨ s.seqState ≠ .chkOvf → exec .sqChkOvf s = .refused .notEnabled) ∧
    (s.lifecycle = .faulted ∨ s.seqState ≠ .chkCmp → exec .sqChkCmp s = .refused .notEnabled)

/-- sq.ack_ovf and sq.ack_cmp (R173, R176): the flag is cleared before the increment, and the other flag is kept. -/
def Obligations.AcknowledgmentsClearTheirFlag : Prop :=
  ∀ s : State,
    (s.lifecycle ≠ .faulted → s.seqState = .ackOvf → exec .sqAckOvf s = .next
      { s with seqState := .incOvf, hw := { s.hw with event := ⟨false, s.hw.event.cmp⟩ } }) ∧
    (s.lifecycle ≠ .faulted → s.seqState = .ackCmp → exec .sqAckCmp s = .next
      { s with seqState := .incCmp, hw := { s.hw with event := ⟨s.hw.event.ovf, false⟩ } }) ∧
    (s.lifecycle = .faulted ∨ s.seqState ≠ .ackOvf → exec .sqAckOvf s = .refused .notEnabled) ∧
    (s.lifecycle = .faulted ∨ s.seqState ≠ .ackCmp → exec .sqAckCmp s = .refused .notEnabled)

/-- sq.inc_ovf and sq.inc_cmp (R174, R177) perform INCREMENT (R110): PERIOD gains 1 modulo 2^32, so its parity is
inverted and 0xFFFFFFFF becomes 0; whatever the parity, each acknowledged flag adds 1. -/
def Obligations.IncrementsCountOneEvent : Prop :=
  ∀ s : State,
    (s.lifecycle ≠ .faulted → s.seqState = .incOvf → ∃ t, exec .sqIncOvf s = .next t ∧
      t = { s with seqState := .chkCmp, period := t.period, incsGhost := s.incsGhost + 1 } ∧
      t.period.toNat = (s.period.toNat + 1) % 2 ^ 32 ∧ t.parity = !s.parity) ∧
    (s.lifecycle ≠ .faulted → s.seqState = .incCmp → ∃ t, exec .sqIncCmp s = .next t ∧
      t = { s with seqState := .exit, period := t.period, incsGhost := s.incsGhost + 1 } ∧
      t.period.toNat = (s.period.toNat + 1) % 2 ^ 32 ∧ t.parity = !s.parity) ∧
    (s.lifecycle = .faulted ∨ s.seqState ≠ .incOvf → exec .sqIncOvf s = .refused .notEnabled) ∧
    (s.lifecycle = .faulted ∨ s.seqState ≠ .incCmp → exec .sqIncCmp s = .refused .notEnabled)

/-- sq.exit (R178): the return restores nothing, because entry saved nothing. -/
def Obligations.ServiceExit : Prop :=
  ∀ s : State,
    (s.lifecycle ≠ .faulted → s.seqState = .exit → exec .sqExit s = .next { s with seqState := .idle }) ∧
    (s.lifecycle = .faulted ∨ s.seqState ≠ .exit → exec .sqExit s = .refused .notEnabled)

/-- One service without a tick in it (R179): 4, 6 or 8 steps by the flags at entry, PERIOD gains one for each set flag,
both flags end clear, and nothing else is written. These are the steps of `irq service` (R100), the first of them
sq.enter, as which IRQ_SERVICE from RTC_IRQ is accepted. -/
def Obligations.ServiceCountsEachSetFlag : Prop :=
  ∀ s : State, s.lifecycle ≠ .faulted → s.seqState = .idle → s.periodValid = true →
    let o := s.hw.event.ovf
    let m := s.hw.event.cmp
    s.assemble .irq .service = some ((serviceSteps o m).map encode) ∧
    exec (.irqService rtcIrq) s = exec .sqEnter s ∧
    (serviceSteps o m).length = 4 + 2 * (o.toNat + m.toNat) ∧
    runAll (serviceSteps o m) s = .next
      { s with
        period := s.period + BitVec.ofNat 32 (o.toNat + m.toNat)
        incsGhost := s.incsGhost + (o.toNat + m.toNat)
        hw := { s.hw with event := ⟨false, false⟩ } }

/-- Every entered service ends (R171, R179): in an unending run in which the sequencer is given its steps, SEQ_STATE is
IDLE again and again. -/
def Obligations.EveryServiceEnds : Prop :=
  ∀ (state : Nat → State) (label : Nat → Instr), IsEndlessRun state label → DeliveryFair state label →
    ∀ n, ∃ m ≥ n, (state m).seqState = .idle

/-- A pending event whose interrupt is enabled is eventually acknowledged (R171, R245): delivery is fair, so it is not
left unserviced for ever. -/
def Obligations.PendingEventIsEventuallyAcknowledged : Prop :=
  ∀ (state : Nat → State) (label : Nat → Instr) (n : Nat) (k : Kind), IsEndlessRun state label →
    DeliveryFair state label → (state n).hw.event.get k = true → (state n).hw.inten.get k = true →
    (state n).periodValid = true →
    ∃ m ≥ n, label m = (match k with | .ovf => .sqAckOvf | .cmp => .sqAckCmp)

/-! ## The init sequencer -/

/-- INIT (R180): accepted once, from a software context; a second one faults ALREADY_INITIALIZED and one from RTC_IRQ
faults ILLEGAL_CONTEXT. -/
def Obligations.InitIsAcceptedOnce : Prop :=
  ∀ (s : State) (src : Byte),
    (s.lifecycle ≠ .faulted → src = rtcIrq → exec (.init src) s = .next
      { s with lifecycle := .faulted, faultCause := .illegalContext, faultOp := 0x10, faultSrc := src }) ∧
    (∀ c, s.lifecycle ≠ .faulted → src ≠ rtcIrq → s.context? src = some c → c.portState = .idle →
      (s.lifecycle = .uninit → exec (.init src) s = .next
        { s with
          lifecycle := .initializing
          initOwner := some src
          initState := .zero
          contexts := s.contexts.set src.toNat { c with portState := .initWait } }) ∧
      (s.lifecycle ≠ .uninit → exec (.init src) s = .next
        { s with lifecycle := .faulted, faultCause := .alreadyInitialized, faultOp := 0x10, faultSrc := src })) ∧
    (s.lifecycle = .faulted ∨ (src ≠ rtcIrq ∧ ∀ c, s.context? src = some c → c.portState ≠ .idle) →
      ∃ r, exec (.init src) s = .refused r)

/-- in.zero, in.clear, in.start and in.en_ovf (R190, R192, R193, R195), each enabled in its INIT_STATE alone. -/
def Obligations.InitStepsFollowTheirOrder : Prop :=
  ∀ s : State,
    (s.lifecycle ≠ .faulted → s.initState = .zero → exec .inZero s = .next
      { s with period := 0, periodValid := true, incsGhost := 0, initState := .setcmp }) ∧
    (s.lifecycle ≠ .faulted → s.initState = .clear → exec .inClear s = .next
      { s with initState := .start, hw := { s.hw with clearPending := true } }) ∧
    (s.lifecycle ≠ .faulted → s.initState = .start → exec .inStart s = .next
      { s with initState := .poll, hw := { s.hw with running := true } }) ∧
    (s.lifecycle ≠ .faulted → s.initState = .enOvf → exec .inEnOvf s = .next
      { s with initState := .enCmp, hw := { s.hw with inten := ⟨true, s.hw.inten.cmp⟩ } }) ∧
    (s.lifecycle = .faulted ∨ s.initState ≠ .zero → exec .inZero s = .refused .notEnabled) ∧
    (s.lifecycle = .faulted ∨ s.initState ≠ .clear → exec .inClear s = .refused .notEnabled) ∧
    (s.lifecycle = .faulted ∨ s.initState ≠ .start → exec .inStart s = .refused .notEnabled) ∧
    (s.lifecycle = .faulted ∨ s.initState ≠ .enOvf → exec .inEnOvf s = .refused .notEnabled)

/-- in.setcmp (R191, R232): CC takes H when the slot exists and the peripheral accepts; otherwise INIT_FAILED is raised
with FAULT_OP = 0xA2 and FAULT_SRC = INIT_OWNER, and CC is not written. -/
def Obligations.SetCompareArmsHalfOrFails : Prop :=
  ∀ s : State,
    (s.lifecycle ≠ .faulted → s.initState = .setcmp →
      (s.params.valid = true → s.params.cmpSlot.toNat < s.params.nSlots → s.draw.accepts = true →
        exec .inSetcmp s = .next { s with initState := .clear, hw := { s.hw with cc := half s.params.W } }) ∧
      (∀ o, s.initOwner = some o → ¬(s.params.cmpSlot.toNat < s.params.nSlots) ∨ s.draw.accepts = false →
        exec .inSetcmp s = .next
          { s with lifecycle := .faulted, faultCause := .initFailed, faultOp := 0xA2, faultSrc := o })) ∧
    (s.lifecycle = .faulted ∨ s.initState ≠ .setcmp → exec .inSetcmp s = .refused .notEnabled)

/-- in.poll (R194): it leaves the loop only when the counter reads 0, and writes nothing but INIT_STATE. -/
def Obligations.PollWaitsForZero : Prop :=
  ∀ s : State,
    (s.lifecycle ≠ .faulted → s.initState = .poll → exec .inPoll s = .next
      { s with initState := if s.hw.counter.toNat % 2 ^ s.params.W = 0 then .enOvf else .poll }) ∧
    (s.lifecycle = .faulted ∨ s.initState ≠ .poll → exec .inPoll s = .refused .notEnabled)

/-- in.en_cmp (R196): the compare interrupt is enabled, LIFECYCLE becomes RUNNING, and the owner's INIT completes. -/
def Obligations.EnableCompareCompletesInit : Prop :=
  ∀ s : State,
    (∀ o c, s.lifecycle ≠ .faulted → s.initState = .enCmp → s.initOwner = some o → s.context? o = some c →
      exec .inEnCmp s = .next
        { s with
          initState := .idle
          lifecycle := .running
          hw := { s.hw with inten := ⟨s.hw.inten.ovf, true⟩ }
          contexts := s.contexts.set o.toNat { c with portState := .idle, response := some .done } }) ∧
    (s.lifecycle = .faulted ∨ s.initState ≠ .enCmp → exec .inEnCmp s = .refused .notEnabled)

/-- The outcome of a clean, prompt and fast init (R197, R274). Any run from reset with CleanLaunch, PromptClear and FastInit,
whatever agents step in between (a clear before in.start and spurious services among them), ends in.en_cmp with
PERIOD = 0, CC = H, COUNTER = t_ghost < H, both interrupts enabled, no flag set, LIFECYCLE = RUNNING and the owner's INIT
completed, and every event from then on is accounted for. Such runs exist: from every such reset the steps
`initSteps`, with any number of polls before the clear and fewer than H ticks after it, run to that outcome. -/
def Obligations.CleanInitEndsRunningAtZero : Prop :=
  (∀ (state : Nat → State) (label : Nat → Instr) (k m : Nat), AtReset (state 0) → CleanLaunch (state 0) →
    IsRun state label (m + 1) → label m = .inEnCmp → PromptClear state label k m →
    FastInit (state 0).params.W label k m →
    let u := state (m + 1)
    let t := ticksBetween label k m
    u.period = 0 ∧ u.periodValid = true ∧ u.lifecycle = .running ∧ u.initState = .idle ∧ u.tGhost = some t ∧
      u.hw = ⟨BitVec.ofNat 32 t, true, false, half u.params.W, ⟨false, false⟩, ⟨true, true⟩⟩ ∧
      u.params = (state 0).params ∧
      (∃ o c, u.initOwner = some o ∧ u.context? o = some c ∧ c.portState = .idle ∧ c.response = some .done) ∧
      Accounted u t) ∧
  ∀ (s : State) (r : Byte) (c : Context) (m a b : Nat), AtReset s → CleanLaunch s → r ≠ rtcIrq →
    s.context? r = some c → s.params.cmpSlot.toNat < s.params.nSlots → s.draw.accepts = true →
    (m = 0 ∨ s.hw.counter.toNat % 2 ^ s.params.W ≠ 0) → a + b < halfTicks s.params.W →
    ∃ u, runAll (initSteps r m a b) s = .next u ∧ u.period = 0 ∧ u.periodValid = true ∧ u.lifecycle = .running ∧
      u.initState = .idle ∧ u.tGhost = some (a + b) ∧
      u.hw = ⟨BitVec.ofNat 32 (a + b), true, false, half s.params.W, ⟨false, false⟩, ⟨true, true⟩⟩ ∧
      u.context? r = some { c with response := some .done } ∧ Accounted u (a + b)

/-- Progress under fairness (R118, R183, R194): in an unending run in which INITSEQ is given its steps, an init reaches its
poll loop, and once the poll has read 0 it completes; a pending clear that is given its step applies; and a running
counter that is given its ticks advances. The loop itself need not end (R284). -/
def Obligations.FairRunsProgress : Prop :=
  ∀ (state : Nat → State) (label : Nat → Instr) (n : Nat), IsEndlessRun state label →
    (InitFair state label → (state n).lifecycle = .initializing →
      (((state n).initState = .zero ∨ (state n).initState = .setcmp ∨ (state n).initState = .clear ∨
          (state n).initState = .start) → ∃ m ≥ n, (state m).initState = .poll) ∧
      (((state n).initState = .enOvf ∨ (state n).initState = .enCmp) →
        ∃ m ≥ n, (state m).initState = .idle ∧ (state m).lifecycle = .running)) ∧
    (ClearFair state label → (state n).hw.clearPending = true →
      ∃ m ≥ n, (state m).hw.clearPending = false ∧ (state m).hw.counter = 0 ∧ (state m).tGhost = some 0) ∧
    (TickFair state label → (state n).hw.running = true →
      ∃ m ≥ n, (state (m + 1)).hw.counter = trunc (state m).params.W ((state m).hw.counter + 1))

/-! ## The peripheral commands

Taken alone on a bench (`bench`, notes/assumptions/19.md); in the block's machine no line issues one (the last of these
statements). -/

/-- GET_COUNTER (R210): RESP[W-1:0] is the counter, RESP[31:W] is the environment's, and the read has no side effect. -/
def Obligations.GetCounterAnswersTheCounter : Prop :=
  ∀ s : State, s.bench = true → s.lifecycle ≠ .faulted → ∃ v, exec .getCounter s = .next { s with pcpResp := some v } ∧
    ∀ i < 32, v.getLsbD i = if i < s.params.W then s.hw.counter.getLsbD i else s.draw.respFill.getLsbD i

/-- SET_COMPARE (R211): CC takes DATA[W-1:0] when the slot exists, is CMP_SLOT and is accepted; RESP[0] says whether it
was accepted; no flag is raised. -/
def Obligations.SetCompareAnswersAcceptance : Prop :=
  ∀ (s : State) (slot : BitVec 4) (data : Word), s.bench = true → s.lifecycle ≠ .faulted →
    ∃ v, v.getLsbD 0 = !(decide (slot.toNat < s.params.nSlots) && s.draw.accepts) ∧
      (slot.toNat < s.params.nSlots → s.draw.accepts = true → slot = s.params.cmpSlot →
        exec (.setCompare slot data) s = .next
          { s with pcpResp := some v, hw := { s.hw with cc := trunc s.params.W data } }) ∧
      (¬(slot.toNat < s.params.nSlots) ∨ s.draw.accepts = false ∨ slot ≠ s.params.cmpSlot →
        exec (.setCompare slot data) s = .next { s with pcpResp := some v })

/-- CLEAR_COUNTER, ENABLE_COUNTER, ENABLE_INTERRUPT and RESET_EVENT (R212, R213, R214, R216): each writes one bit of the
peripheral, and CLEAR_COUNTER leaves the counter to hw.clear_apply. -/
def Obligations.CommandsWriteOneBit : Prop :=
  ∀ s : State, s.bench = true → s.lifecycle ≠ .faulted →
    exec .clearCounter s = .next { s with hw := { s.hw with clearPending := true } } ∧
    exec .enableCounter s = .next { s with hw := { s.hw with running := true } } ∧
    exec (.enableInterrupt .ovf) s = .next { s with hw := { s.hw with inten := ⟨true, s.hw.inten.cmp⟩ } } ∧
    exec (.enableInterrupt .cmp) s = .next { s with hw := { s.hw with inten := ⟨s.hw.inten.ovf, true⟩ } } ∧
    exec (.resetEvent .ovf) s = .next { s with hw := { s.hw with event := ⟨false, s.hw.event.cmp⟩ } } ∧
    exec (.resetEvent .cmp) s = .next { s with hw := { s.hw with event := ⟨s.hw.event.ovf, false⟩ } }

/-- IS_EVENT_TRIGGERED (R215): RESP[0] is the flag whatever its enable holds, and the read does not clear it. -/
def Obligations.IsEventTriggeredAnswersTheFlag : Prop :=
  ∀ (s : State) (k : Kind), s.bench = true → s.lifecycle ≠ .faulted →
    ∃ v, exec (.isEventTriggered k) s = .next { s with pcpResp := some v } ∧ v.getLsbD 0 = s.hw.event.get k

/-- A second identical command leaves the state the first one left (R64). -/
def Obligations.CommandsAreIdempotent : Prop :=
  ∀ (s t : State) (i : Instr), isAgentStep i = false → exec i s = .next t → exec i t = .next t

/-- The block changes the peripheral through its commands alone (R217, R218): a step other than the counter's own two
leaves the peripheral as the commands it issues leave it, or unchanged when it faults; off the bench a command line is
not enabled, and every step of the machine but a reset that changes the peripheral, by the schedule or by a free choice,
is a step of one of the block's agents or of HW. -/
def Obligations.BlockChangesPeripheralOnlyByItsCommands : Prop :=
  (∀ (s t : State) (i : Instr), isAgentStep i = true → i ≠ .hwTick → i ≠ .hwClearApply → exec i s = .next t →
    (t.lifecycle ≠ .faulted →
      t.hw = (commandsOf s.params i).foldl (fun h c => h.runCommand s.params s.draw c) s.hw) ∧
    (t.lifecycle = .faulted → t.hw = s.hw)) ∧
  (∀ (s : State) (i : Instr), s.bench = false → isAgentStep i = false → exec i s = .refused .notEnabled) ∧
  ∀ s t : State, s.bench = false → step s = .next t → t.hw ≠ s.hw → (∀ d rest, s.schedule ≠ .reset d :: rest) →
    ∃ i s', isAgentStep i = true ∧ s'.hw = s.hw ∧ s'.params = s.params ∧ exec i s' = .next t

/-! ## The counter -/

/-- hw.tick (R114, R115, R116): the counter gains 1 modulo 2^W; OVF occurs iff it was CMAX and CMP iff it becomes CC; an
event sets its flag if its interrupt is enabled or events latch while disabled, and no flag is cleared. -/
def Obligations.TickAdvancesAndDetects : Prop :=
  ∀ s : State, s.params.valid = true → s.hw.counter.toNat < 2 ^ s.params.W →
    (s.lifecycle ≠ .faulted → s.hw.running = true → ∃ t, exec .hwTick s = .next t ∧
      t = { s with tGhost := s.tGhost.map (· + 1), hw := { s.hw with counter := t.hw.counter, event := t.hw.event } } ∧
      t.hw.counter.toNat = (s.hw.counter.toNat + 1) % 2 ^ s.params.W ∧
      (t.hw.event.ovf = true ↔ s.hw.event.ovf = true ∨
        (s.hw.counter.toNat = 2 ^ s.params.W - 1 ∧ (s.hw.inten.ovf = true ∨ s.params.latchWhenDisabled = true))) ∧
      (t.hw.event.cmp = true ↔ s.hw.event.cmp = true ∨
        (t.hw.counter = s.hw.cc ∧ (s.hw.inten.cmp = true ∨ s.params.latchWhenDisabled = true)))) ∧
    (s.lifecycle = .faulted ∨ s.hw.running = false → exec .hwTick s = .refused .notEnabled)

/-- hw.clear_apply (R117): the deferred clear, which raises no event. -/
def Obligations.ClearAppliesLater : Prop :=
  ∀ s : State,
    (s.lifecycle ≠ .faulted → s.hw.clearPending = true → exec .hwClearApply s = .next
      { s with tGhost := some 0, hw := { s.hw with counter := 0, clearPending := false } }) ∧
    (s.lifecycle = .faulted ∨ s.hw.clearPending = false → exec .hwClearApply s = .refused .notEnabled)

/-- Event timing (R119): with CC = H and both events latching, the tick that makes t_ghost = T raises CMP iff T is an odd
multiple of H and OVF iff it is an even one. -/
def Obligations.EventsMarkEveryHalfCycle : Prop :=
  ∀ (s : State) (T : Nat), s.params.valid = true → s.lifecycle ≠ .faulted → s.hw.running = true →
    s.tGhost = some T → s.hw.counter.toNat = T % 2 ^ s.params.W → s.hw.cc = half s.params.W →
    (∀ k, mayLatch s.params s.hw k = true) → s.hw.event = ⟨false, false⟩ →
    ∃ t, exec .hwTick s = .next t ∧ t.tGhost = some (T + 1) ∧
      (t.hw.event.cmp = true ↔ ∃ k, T + 1 = (2 * k + 1) * halfTicks s.params.W) ∧
      (t.hw.event.ovf = true ↔ ∃ k, T + 1 = (2 * k) * halfTicks s.params.W)

/-! ## Faults and reset -/

/-- No agent takes a step while LIFECYCLE = FAULTED (R14). -/
def Obligations.NoAgentStepsWhenFaulted : Prop :=
  ∀ (i : Instr) (s : State), s.lifecycle = .faulted → ∃ r, exec i s = .refused r

/-- Faults are precise (R237): the state after a fault is the state before, with only the three fault registers and
LIFECYCLE changed. -/
def Obligations.FaultsArePrecise : Prop :=
  ∀ (i : Instr) (s t : State), exec i s = .next t → t.lifecycle = .faulted →
    t = { s with
      lifecycle := .faulted, faultCause := t.faultCause, faultOp := t.faultOp, faultSrc := t.faultSrc } ∧
    t.faultCause ≠ .none

/-- In every state with the invariant, a fault is raised at acceptance or by in.setcmp (R256), with the cause and the
record of R230. -/
def Obligations.FaultsAriseOnlyAtAcceptanceOrSetCompare : Prop :=
  ∀ (i : Instr) (s t : State), Safety.Inv s → exec i s = .next t → t.lifecycle = .faulted →
    (∃ r, (i = .now r ∨ i = .rdSampleP r) ∧ t.faultOp = 0x20 ∧ t.faultSrc = r ∧
      t.faultCause = if r = rtcIrq then .illegalContext else .notInitialized) ∨
    (∃ r, i = .init r ∧ t.faultOp = 0x10 ∧ t.faultSrc = r ∧
      t.faultCause = if r = rtcIrq then .illegalContext else .alreadyInitialized) ∨
    (∃ r, i = .irqService r ∧ t.faultOp = 0x30 ∧ t.faultSrc = r ∧
      t.faultCause = if r = rtcIrq then .notInitialized else .illegalContext) ∨
    (i = .inSetcmp ∧ t.faultOp = 0xA2 ∧ s.initOwner = some t.faultSrc ∧ t.faultCause = .initFailed)

/-- FAULTED is left by reset alone (R238). Any other step of a faulted block passes over a free choice (the model's choice,
notes/assumptions/4.md): one more choice is used, with its draw, and every register is as it was. -/
def Obligations.OnlyResetLeavesFaulted : Prop :=
  ∀ s t : State, s.lifecycle = .faulted → step s = .next t →
    (∃ d rest, s.schedule = .reset d :: rest) ∨ (s.schedule = [] ∧
      t = { s with draws := s.draws + 1, draw := (Config.choice s.draws).draw })

/-- Reset values (R270): State.reset, and the state a reset input leaves, for whatever state the peripheral is found
in. That the parameters and the number of contexts stay is DEDUCED (notes/assumptions/10.md), and that the machine starts off
the bench is the model's choice (19.md). -/
def Obligations.ResetLeavesTheResetValues : Prop :=
  let isReset (p : Params) (t : State) : Prop :=
    t.period = 0 ∧ t.periodValid = false ∧ t.lifecycle = .uninit ∧ t.faultCause = .none ∧ t.faultOp = 0 ∧
    t.faultSrc = 0 ∧ t.initState = .idle ∧ t.initOwner = none ∧ t.seqState = .idle ∧
    (∀ c ∈ t.contexts, c.portState = .idle ∧ c.pLatch = none ∧ c.cLatch = none ∧ c.result = none) ∧
    t.hw.clearPending = false ∧ t.hw.inten = ⟨false, false⟩ ∧ t.tGhost = none ∧ t.incsGhost = 0 ∧ t.params = p
  isReset Config.params State.reset ∧ State.reset.bench = false ∧
  ∀ (s : State) (d : ResetDraw) (rest : List Input), s.schedule = .reset d :: rest →
    ∃ t, step s = .next t ∧ isReset s.params t ∧ t.contexts.length = s.contexts.length ∧
      t.hw.counter = trunc s.params.W d.counter ∧ t.hw.cc = trunc s.params.W d.cc ∧ t.hw.running = d.running ∧
      t.hw.event = ⟨d.eventOvf, d.eventCmp⟩

/-- Reset entry (R271): after reset LINE is 0, the only step of an agent that does not fault is the acceptance of INIT from
a software context or, if RUNNING happens to be 1, hw.tick, and sq.enter is not enabled. -/
def Obligations.OnlyInitSucceedsAfterReset : Prop :=
  ∀ s : State, AtReset s → s.line = false ∧ exec .sqEnter s = .refused .notEnabled ∧
    ∀ (i : Instr) (t : State), isAgentStep i = true → exec i s = .next t →
      t.lifecycle = .faulted ∨ (∃ r, i = .init r ∧ r ≠ rtcIrq ∧ t.lifecycle = .initializing) ∨
        (i = .hwTick ∧ s.hw.running = true)

/-! ## The whole machine -/

/-- The invariant holds at reset. -/
def Obligations.InvariantHoldsAtReset : Prop := Safety.Inv State.reset

/-- Every step keeps the invariant, from every state that has it and for every input: widths, the ghost relations, the
life-cycle's relation to the two sequencers and the ports (R23, R24, R28 to R31, R43, R46). -/
def Obligations.EveryStepKeepsTheInvariant : Prop :=
  ∀ s t : State, Safety.Inv s → step s = .next t → Safety.Inv t

/-- A register that holds no value is never read (R46): in a state with the invariant rd.sample_c and in.en_cmp, which
read P_LATCH[r] and INIT_OWNER, never fault, and the fault of in.setcmp records an INIT_OWNER that holds a value. In a
state that no run reaches such a read is a model error, and it faults (R46, 93 U15): FAULTED is entered as R236 says. No
rule states its cause, nor FAULT_SRC where INIT_OWNER holds no value: the draw leaves every cause and every id possible
(free values, notes/assumptions/2.md). -/
def Obligations.NoStepReadsARegisterWithoutValue : Prop :=
  (∀ (s t : State) (i : Instr), Safety.Inv s → exec i s = .next t → t.lifecycle = .faulted →
    (∀ r, i ≠ .rdSampleC r) ∧ i ≠ .inEnCmp ∧ (i = .inSetcmp → s.initOwner = some t.faultSrc)) ∧
  (∀ (s : State) (r : Byte) (c : Context), s.lifecycle ≠ .faulted → s.context? r = some c → c.portState = .haveP →
    c.pLatch = none → ∀ k, k ≠ .none → ∃ n, ∀ d : Draw, d.errorCause = n →
      exec (.rdSampleC r) { s with draw := d } = .next
        { s with draw := d, lifecycle := .faulted, faultCause := k, faultOp := 0x81, faultSrc := r }) ∧
  (∀ s : State, s.lifecycle ≠ .faulted → s.initOwner = none → s.initState = .enCmp → ∀ k, k ≠ .none →
    ∃ n, ∀ d : Draw, d.errorCause = n →
      exec .inEnCmp { s with draw := d } = .next
        { s with draw := d, lifecycle := .faulted, faultCause := k, faultOp := 0xA7, faultSrc := d.errorSrc }) ∧
  ∀ s : State, s.lifecycle ≠ .faulted → s.initOwner = none → s.initState = .setcmp →
    ¬(s.params.cmpSlot.toNat < s.params.nSlots) ∨ s.draw.accepts = false →
      exec .inSetcmp s = .next
        { s with lifecycle := .faulted, faultCause := .initFailed, faultOp := 0xA2, faultSrc := s.draw.errorSrc }

/-- PERIOD's writers (R22): only in.zero, which writes 0, and INCREMENT in the two sequencer steps. -/
def Obligations.OnlyZeroAndIncrementWritePeriod : Prop :=
  ∀ (i : Instr) (s t : State), exec i s = .next t →
    t.period = s.period ∨ (i = .inZero ∧ t.period = 0) ∨
    ((i = .sqIncOvf ∨ i = .sqIncCmp) ∧ t.period = s.period + 1)

/-- LIFECYCLE's writers (R24): INIT's acceptance, in.en_cmp and fault entry. -/
def Obligations.LifecycleMovesOnlyForward : Prop :=
  ∀ (i : Instr) (s t : State), Safety.Inv s → exec i s = .next t →
    t.lifecycle = s.lifecycle ∨
    (s.lifecycle = .uninit ∧ t.lifecycle = .initializing ∧ ∃ r, i = .init r) ∨
    (s.lifecycle = .initializing ∧ t.lifecycle = .running ∧ i = .inEnCmp) ∨
    (s.lifecycle ≠ .faulted ∧ t.lifecycle = .faulted)

/-- Nothing is torn down (R23, R36, R40, R241): PERIOD_VALID, RUNNING and the interrupt enables stay set once they are,
unless a reset is the input. The parameters (R6), the number of contexts (R11) and the bench never change: a step writes
none of them (notes/assumptions/1.md, 19.md), a reset included (DEDUCED, notes/assumptions/10.md). -/
def Obligations.NothingIsTornDownButByReset : Prop :=
  ∀ s t : State, step s = .next t →
    t.params = s.params ∧ t.contexts.length = s.contexts.length ∧ t.bench = s.bench ∧
    ((∀ d rest, s.schedule ≠ .reset d :: rest) →
      (s.periodValid = true → t.periodValid = true) ∧ (s.hw.running = true → t.hw.running = true) ∧
      ∀ k, s.hw.inten.get k = true → t.hw.inten.get k = true)

/-- A flag's writers (R39, R242): only hw.tick sets one, and only the acknowledgment of its kind, with RESET_EVENT,
clears it. -/
def Obligations.FlagsAreSetByTicksAndClearedByAcknowledgment : Prop :=
  ∀ (i : Instr) (s t : State) (k : Kind), exec i s = .next t →
    (s.hw.event.get k = false → t.hw.event.get k = true → i = .hwTick) ∧
    (s.hw.event.get k = true → t.hw.event.get k = false →
      i = .resetEvent k ∨ i = (match k with | .ovf => .sqAckOvf | .cmp => .sqAckCmp))

/-- LINE (R41, R242): it is 1 iff an enabled flag is 1, and no step but an acknowledgment or a RESET_EVENT lowers it. -/
def Obligations.LineStaysHighUntilAcknowledged : Prop :=
  (∀ s : State, s.line = true ↔ ∃ k, s.hw.event.get k = true ∧ s.hw.inten.get k = true) ∧
  ∀ (i : Instr) (s t : State), exec i s = .next t → s.line = true →
    t.line = true ∨ i = .sqAckOvf ∨ i = .sqAckCmp ∨ ∃ k, i = .resetEvent k

/-- Every event since the clear is accounted for (R44, R119, R282): as long as no tick finds the flag of the event it
raises still set, the half-cycle index is the number of increments plus the events not yet counted, after every step. -/
def Obligations.EveryEventIsAccountedFor : Prop :=
  ∀ (i : Instr) (s t : State) (n : Nat), Accounted s n → Takes i s t → LosesNoEvent i s →
    Accounted t (if i = .hwTick then n + 1 else n)

/-- The quiescent invariant (R44): with every event counted and no wrap, the number of increments is the half-cycle index,
and the counter is in the lower half when PERIOD is even and in the upper half when it is odd. -/
def Obligations.QuiescentParityGivesTheHalf : Prop :=
  ∀ (s : State) (n : Nat), Accounted s n → Quiescent s → s.incsGhost < 2 ^ 32 →
    s.incsGhost = n / halfTicks s.params.W ∧
    (s.parity = false → s.hw.counter.toNat < halfTicks s.params.W) ∧
    (s.parity = true → halfTicks s.params.W ≤ s.hw.counter.toNat ∧ s.hw.counter.toNat < 2 ^ s.params.W)

/-- The timing claim (R283): in a run that starts with every event accounted for, loses none and does not wrap PERIOD,
with service latency at most `L` and read gap at most `G` and `L + G < H`, a NOW accepted at step `i` and completed at
step `j` delivers exactly the tick count at its counter sample, whatever steps of other agents fall between. -/
def Obligations.EveryNowIsExactUnderLatencyAndGap : Prop :=
  ∀ (state : Nat → State) (label : Nat → Instr) (tick : Nat → Nat) (n L G i j : Nat) (r : Byte),
    IsRun state label n → Accounted (state 0) (tick 0) → (∀ k ≤ n, (state k).tGhost = some (tick k)) →
    (∀ k < n, LosesNoEvent (label k) (state k)) → (∀ k ≤ n, (state k).incsGhost < 2 ^ 32) →
    (∀ k ≤ n, LatencyAtMost L (state k)) → L + G < halfTicks (state 0).params.W →
    i < j → j < n → (label i = .now r ∨ label i = .rdSampleP r) → label j = .rdSampleC r →
    (∀ k, i < k → k < j → label k ≠ .rdSampleC r) → tick j ≤ tick i + G →
    ∃ c v, (state (j + 1)).context? r = some c ∧ c.result = some v ∧ c.response = some (.timestamp v) ∧
      v.toNat = tick j
end

