-- ==== Sys2Proof/Laws/Bits.lean ====
section
/-!
SUPPORT. The low W bits of words, the constants H and CMAX, and responses: what the block reads of a response does not
depend on the bits that no rule fixes (30_encoding.md R94).
-/

namespace Sys2Proof.Machine

theorem trunc_toNat (w : Nat) (v : Word) : (trunc w v).toNat = v.toNat % 2 ^ w := by
  have h : v.toNat % 2 ^ w < 2 ^ 32 := Nat.lt_of_le_of_lt (Nat.mod_le _ _) v.isLt
  rw [trunc, BitVec.toNat_setWidth, BitVec.toNat_setWidth, Nat.mod_eq_of_lt h]

theorem trunc_lt (w : Nat) (v : Word) : (trunc w v).toNat < 2 ^ w := by
  rw [trunc_toNat]
  exact Nat.mod_lt _ (Nat.two_pow_pos w)

theorem trunc_of_lt {w : Nat} {v : Word} (h : v.toNat < 2 ^ w) : trunc w v = v := by
  apply BitVec.eq_of_toNat_eq
  rw [trunc_toNat, Nat.mod_eq_of_lt h]

theorem trunc_getLsbD (w i : Nat) (v : Word) : (trunc w v).getLsbD i = (decide (i < w) && v.getLsbD i) := by
  by_cases hi : i < 32
  · simp [trunc, BitVec.getLsbD_setWidth, hi]
  · rw [BitVec.getLsbD_of_ge _ _ (by omega), BitVec.getLsbD_of_ge v _ (by omega), Bool.and_false]

theorem joinLow_getLsbD {w i : Nat} (low fill : Word) (h : i < w) :
    (joinLow w low fill).getLsbD i = low.getLsbD i := by
  by_cases hi : i < 32
  · simp [joinLow, trunc_getLsbD, h]
  · rw [BitVec.getLsbD_of_ge _ _ (by omega), BitVec.getLsbD_of_ge low _ (by omega)]

/-- The counter in a response is the counter, whatever the response's upper bits are (R94, R145, R210). -/
@[simp] theorem trunc_joinLow (w : Nat) (low fill : Word) : trunc w (joinLow w low fill) = trunc w low := by
  apply BitVec.eq_of_getLsbD_eq
  intro i _
  rw [trunc_getLsbD, trunc_getLsbD]
  by_cases h : i < w
  · rw [joinLow_getLsbD _ _ h]
  · simp [h]

theorem flagWord_bit (b : Bool) : (flagWord b).getLsbD 0 = b := by
  cases b <;> decide

/-- The flag in a one-bit response, whatever the other bits are (R94, R215). -/
theorem joinLow_flag (b : Bool) (fill : Word) : (joinLow 1 (flagWord b) fill).getLsbD 0 = b := by
  rw [joinLow_getLsbD _ _ (by decide), flagWord_bit]

theorem halfTicks_pos (w : Nat) : 0 < halfTicks w := Nat.two_pow_pos _

/-- A counter cycle is two periods (R8). -/
theorem two_pow_eq_halves {w : Nat} (h : 1 ≤ w) : 2 ^ w = 2 * halfTicks w := by
  obtain ⟨k, rfl⟩ : ∃ k, w = k + 1 := ⟨w - 1, by omega⟩
  simp [halfTicks, Nat.pow_succ, Nat.mul_comm]

theorem halfTicks_lt {w : Nat} (h : w ≤ 32) : halfTicks w < 2 ^ 32 :=
  Nat.pow_lt_pow_right (by decide) (by omega)

theorem half_toNat {w : Nat} (h : w ≤ 32) : (half w).toNat = halfTicks w := by
  rw [half, BitVec.toNat_ofNat, Nat.mod_eq_of_lt (halfTicks_lt h)]

theorem cmax_toNat {w : Nat} (h : w ≤ 32) : (cmax w).toNat = 2 ^ w - 1 := by
  have : 2 ^ w ≤ 2 ^ 32 := Nat.pow_le_pow_right (by decide) h
  have := Nat.two_pow_pos w
  rw [cmax, BitVec.toNat_ofNat, Nat.mod_eq_of_lt (by omega)]

theorem half_lt {w : Nat} (h1 : 1 ≤ w) (h : w ≤ 32) : (half w).toNat < 2 ^ w := by
  have := halfTicks_pos w
  rw [half_toNat h, two_pow_eq_halves h1]
  omega

/-- The counter after a tick, when it is in range (R115). -/
theorem trunc_succ_toNat {w : Nat} (h : w ≤ 32) (c : Word) :
    (trunc w (c + 1)).toNat = (c.toNat + 1) % 2 ^ w := by
  rw [trunc_toNat, BitVec.toNat_add]
  have hd : 2 ^ w ∣ 2 ^ 32 := Nat.pow_dvd_pow 2 h
  simpa using Nat.mod_mod_of_dvd (c.toNat + 1) hd

end Sys2Proof.Machine
end

