-- ==== Sys2Proof/Laws/State.lean ====
section
/-!
SUPPORT. Every field after every named update of the state: each true by rfl, so that no later proof unfolds an update.
-/

namespace Sys2Proof.Machine

variable (s : State)

@[simp] theorem State.setSeqState_params (q : SeqState) : (s.setSeqState q).params = s.params := rfl
@[simp] theorem State.setSeqState_period (q : SeqState) : (s.setSeqState q).period = s.period := rfl
@[simp] theorem State.setSeqState_periodValid (q : SeqState) : (s.setSeqState q).periodValid = s.periodValid := rfl
@[simp] theorem State.setSeqState_lifecycle (q : SeqState) : (s.setSeqState q).lifecycle = s.lifecycle := rfl
@[simp] theorem State.setSeqState_faultCause (q : SeqState) : (s.setSeqState q).faultCause = s.faultCause := rfl
@[simp] theorem State.setSeqState_faultOp (q : SeqState) : (s.setSeqState q).faultOp = s.faultOp := rfl
@[simp] theorem State.setSeqState_faultSrc (q : SeqState) : (s.setSeqState q).faultSrc = s.faultSrc := rfl
@[simp] theorem State.setSeqState_initState (q : SeqState) : (s.setSeqState q).initState = s.initState := rfl
@[simp] theorem State.setSeqState_initOwner (q : SeqState) : (s.setSeqState q).initOwner = s.initOwner := rfl
@[simp] theorem State.setSeqState_seqState (q : SeqState) : (s.setSeqState q).seqState = q := rfl
@[simp] theorem State.setSeqState_contexts (q : SeqState) : (s.setSeqState q).contexts = s.contexts := rfl
@[simp] theorem State.setSeqState_hw (q : SeqState) : (s.setSeqState q).hw = s.hw := rfl
@[simp] theorem State.setSeqState_pcpResp (q : SeqState) : (s.setSeqState q).pcpResp = s.pcpResp := rfl
@[simp] theorem State.setSeqState_tGhost (q : SeqState) : (s.setSeqState q).tGhost = s.tGhost := rfl
@[simp] theorem State.setSeqState_incsGhost (q : SeqState) : (s.setSeqState q).incsGhost = s.incsGhost := rfl
@[simp] theorem State.setSeqState_schedule (q : SeqState) : (s.setSeqState q).schedule = s.schedule := rfl
@[simp] theorem State.setSeqState_draws (q : SeqState) : (s.setSeqState q).draws = s.draws := rfl
@[simp] theorem State.setSeqState_draw (q : SeqState) : (s.setSeqState q).draw = s.draw := rfl
@[simp] theorem State.setSeqState_bench (q : SeqState) : (s.setSeqState q).bench = s.bench := rfl

@[simp] theorem State.setInitState_params (q : InitState) : (s.setInitState q).params = s.params := rfl
@[simp] theorem State.setInitState_period (q : InitState) : (s.setInitState q).period = s.period := rfl
@[simp] theorem State.setInitState_periodValid (q : InitState) : (s.setInitState q).periodValid = s.periodValid := rfl
@[simp] theorem State.setInitState_lifecycle (q : InitState) : (s.setInitState q).lifecycle = s.lifecycle := rfl
@[simp] theorem State.setInitState_faultCause (q : InitState) : (s.setInitState q).faultCause = s.faultCause := rfl
@[simp] theorem State.setInitState_faultOp (q : InitState) : (s.setInitState q).faultOp = s.faultOp := rfl
@[simp] theorem State.setInitState_faultSrc (q : InitState) : (s.setInitState q).faultSrc = s.faultSrc := rfl
@[simp] theorem State.setInitState_initState (q : InitState) : (s.setInitState q).initState = q := rfl
@[simp] theorem State.setInitState_initOwner (q : InitState) : (s.setInitState q).initOwner = s.initOwner := rfl
@[simp] theorem State.setInitState_seqState (q : InitState) : (s.setInitState q).seqState = s.seqState := rfl
@[simp] theorem State.setInitState_contexts (q : InitState) : (s.setInitState q).contexts = s.contexts := rfl
@[simp] theorem State.setInitState_hw (q : InitState) : (s.setInitState q).hw = s.hw := rfl
@[simp] theorem State.setInitState_pcpResp (q : InitState) : (s.setInitState q).pcpResp = s.pcpResp := rfl
@[simp] theorem State.setInitState_tGhost (q : InitState) : (s.setInitState q).tGhost = s.tGhost := rfl
@[simp] theorem State.setInitState_incsGhost (q : InitState) : (s.setInitState q).incsGhost = s.incsGhost := rfl
@[simp] theorem State.setInitState_schedule (q : InitState) : (s.setInitState q).schedule = s.schedule := rfl
@[simp] theorem State.setInitState_draws (q : InitState) : (s.setInitState q).draws = s.draws := rfl
@[simp] theorem State.setInitState_draw (q : InitState) : (s.setInitState q).draw = s.draw := rfl
@[simp] theorem State.setInitState_bench (q : InitState) : (s.setInitState q).bench = s.bench := rfl

@[simp] theorem State.setHw_params (h : Peripheral) : (s.setHw h).params = s.params := rfl
@[simp] theorem State.setHw_period (h : Peripheral) : (s.setHw h).period = s.period := rfl
@[simp] theorem State.setHw_periodValid (h : Peripheral) : (s.setHw h).periodValid = s.periodValid := rfl
@[simp] theorem State.setHw_lifecycle (h : Peripheral) : (s.setHw h).lifecycle = s.lifecycle := rfl
@[simp] theorem State.setHw_faultCause (h : Peripheral) : (s.setHw h).faultCause = s.faultCause := rfl
@[simp] theorem State.setHw_faultOp (h : Peripheral) : (s.setHw h).faultOp = s.faultOp := rfl
@[simp] theorem State.setHw_faultSrc (h : Peripheral) : (s.setHw h).faultSrc = s.faultSrc := rfl
@[simp] theorem State.setHw_initState (h : Peripheral) : (s.setHw h).initState = s.initState := rfl
@[simp] theorem State.setHw_initOwner (h : Peripheral) : (s.setHw h).initOwner = s.initOwner := rfl
@[simp] theorem State.setHw_seqState (h : Peripheral) : (s.setHw h).seqState = s.seqState := rfl
@[simp] theorem State.setHw_contexts (h : Peripheral) : (s.setHw h).contexts = s.contexts := rfl
@[simp] theorem State.setHw_hw (h : Peripheral) : (s.setHw h).hw = h := rfl
@[simp] theorem State.setHw_pcpResp (h : Peripheral) : (s.setHw h).pcpResp = s.pcpResp := rfl
@[simp] theorem State.setHw_tGhost (h : Peripheral) : (s.setHw h).tGhost = s.tGhost := rfl
@[simp] theorem State.setHw_incsGhost (h : Peripheral) : (s.setHw h).incsGhost = s.incsGhost := rfl
@[simp] theorem State.setHw_schedule (h : Peripheral) : (s.setHw h).schedule = s.schedule := rfl
@[simp] theorem State.setHw_draws (h : Peripheral) : (s.setHw h).draws = s.draws := rfl
@[simp] theorem State.setHw_draw (h : Peripheral) : (s.setHw h).draw = s.draw := rfl
@[simp] theorem State.setHw_bench (h : Peripheral) : (s.setHw h).bench = s.bench := rfl

@[simp] theorem State.setPcpResp_params (v : Word) : (s.setPcpResp v).params = s.params := rfl
@[simp] theorem State.setPcpResp_period (v : Word) : (s.setPcpResp v).period = s.period := rfl
@[simp] theorem State.setPcpResp_periodValid (v : Word) : (s.setPcpResp v).periodValid = s.periodValid := rfl
@[simp] theorem State.setPcpResp_lifecycle (v : Word) : (s.setPcpResp v).lifecycle = s.lifecycle := rfl
@[simp] theorem State.setPcpResp_faultCause (v : Word) : (s.setPcpResp v).faultCause = s.faultCause := rfl
@[simp] theorem State.setPcpResp_faultOp (v : Word) : (s.setPcpResp v).faultOp = s.faultOp := rfl
@[simp] theorem State.setPcpResp_faultSrc (v : Word) : (s.setPcpResp v).faultSrc = s.faultSrc := rfl
@[simp] theorem State.setPcpResp_initState (v : Word) : (s.setPcpResp v).initState = s.initState := rfl
@[simp] theorem State.setPcpResp_initOwner (v : Word) : (s.setPcpResp v).initOwner = s.initOwner := rfl
@[simp] theorem State.setPcpResp_seqState (v : Word) : (s.setPcpResp v).seqState = s.seqState := rfl
@[simp] theorem State.setPcpResp_contexts (v : Word) : (s.setPcpResp v).contexts = s.contexts := rfl
@[simp] theorem State.setPcpResp_hw (v : Word) : (s.setPcpResp v).hw = s.hw := rfl
@[simp] theorem State.setPcpResp_pcpResp (v : Word) : (s.setPcpResp v).pcpResp = some v := rfl
@[simp] theorem State.setPcpResp_tGhost (v : Word) : (s.setPcpResp v).tGhost = s.tGhost := rfl
@[simp] theorem State.setPcpResp_incsGhost (v : Word) : (s.setPcpResp v).incsGhost = s.incsGhost := rfl
@[simp] theorem State.setPcpResp_schedule (v : Word) : (s.setPcpResp v).schedule = s.schedule := rfl
@[simp] theorem State.setPcpResp_draws (v : Word) : (s.setPcpResp v).draws = s.draws := rfl
@[simp] theorem State.setPcpResp_draw (v : Word) : (s.setPcpResp v).draw = s.draw := rfl
@[simp] theorem State.setPcpResp_bench (v : Word) : (s.setPcpResp v).bench = s.bench := rfl

@[simp] theorem State.modifyContext_params (r : Byte) (f : Context → Context) : (s.modifyContext r f).params = s.params := rfl
@[simp] theorem State.modifyContext_period (r : Byte) (f : Context → Context) : (s.modifyContext r f).period = s.period := rfl
@[simp] theorem State.modifyContext_periodValid (r : Byte) (f : Context → Context) : (s.modifyContext r f).periodValid = s.periodValid := rfl
@[simp] theorem State.modifyContext_lifecycle (r : Byte) (f : Context → Context) : (s.modifyContext r f).lifecycle = s.lifecycle := rfl
@[simp] theorem State.modifyContext_faultCause (r : Byte) (f : Context → Context) : (s.modifyContext r f).faultCause = s.faultCause := rfl
@[simp] theorem State.modifyContext_faultOp (r : Byte) (f : Context → Context) : (s.modifyContext r f).faultOp = s.faultOp := rfl
@[simp] theorem State.modifyContext_faultSrc (r : Byte) (f : Context → Context) : (s.modifyContext r f).faultSrc = s.faultSrc := rfl
@[simp] theorem State.modifyContext_initState (r : Byte) (f : Context → Context) : (s.modifyContext r f).initState = s.initState := rfl
@[simp] theorem State.modifyContext_initOwner (r : Byte) (f : Context → Context) : (s.modifyContext r f).initOwner = s.initOwner := rfl
@[simp] theorem State.modifyContext_seqState (r : Byte) (f : Context → Context) : (s.modifyContext r f).seqState = s.seqState := rfl
@[simp] theorem State.modifyContext_contexts (r : Byte) (f : Context → Context) : (s.modifyContext r f).contexts = s.contexts.modify r.toNat f := rfl
@[simp] theorem State.modifyContext_hw (r : Byte) (f : Context → Context) : (s.modifyContext r f).hw = s.hw := rfl
@[simp] theorem State.modifyContext_pcpResp (r : Byte) (f : Context → Context) : (s.modifyContext r f).pcpResp = s.pcpResp := rfl
@[simp] theorem State.modifyContext_tGhost (r : Byte) (f : Context → Context) : (s.modifyContext r f).tGhost = s.tGhost := rfl
@[simp] theorem State.modifyContext_incsGhost (r : Byte) (f : Context → Context) : (s.modifyContext r f).incsGhost = s.incsGhost := rfl
@[simp] theorem State.modifyContext_schedule (r : Byte) (f : Context → Context) : (s.modifyContext r f).schedule = s.schedule := rfl
@[simp] theorem State.modifyContext_draws (r : Byte) (f : Context → Context) : (s.modifyContext r f).draws = s.draws := rfl
@[simp] theorem State.modifyContext_draw (r : Byte) (f : Context → Context) : (s.modifyContext r f).draw = s.draw := rfl
@[simp] theorem State.modifyContext_bench (r : Byte) (f : Context → Context) : (s.modifyContext r f).bench = s.bench := rfl

@[simp] theorem State.increment_params : s.increment.params = s.params := rfl
@[simp] theorem State.increment_period : s.increment.period = s.period + 1 := rfl
@[simp] theorem State.increment_periodValid : s.increment.periodValid = s.periodValid := rfl
@[simp] theorem State.increment_lifecycle : s.increment.lifecycle = s.lifecycle := rfl
@[simp] theorem State.increment_faultCause : s.increment.faultCause = s.faultCause := rfl
@[simp] theorem State.increment_faultOp : s.increment.faultOp = s.faultOp := rfl
@[simp] theorem State.increment_faultSrc : s.increment.faultSrc = s.faultSrc := rfl
@[simp] theorem State.increment_initState : s.increment.initState = s.initState := rfl
@[simp] theorem State.increment_initOwner : s.increment.initOwner = s.initOwner := rfl
@[simp] theorem State.increment_seqState : s.increment.seqState = s.seqState := rfl
@[simp] theorem State.increment_contexts : s.increment.contexts = s.contexts := rfl
@[simp] theorem State.increment_hw : s.increment.hw = s.hw := rfl
@[simp] theorem State.increment_pcpResp : s.increment.pcpResp = s.pcpResp := rfl
@[simp] theorem State.increment_tGhost : s.increment.tGhost = s.tGhost := rfl
@[simp] theorem State.increment_incsGhost : s.increment.incsGhost = s.incsGhost + 1 := rfl
@[simp] theorem State.increment_schedule : s.increment.schedule = s.schedule := rfl
@[simp] theorem State.increment_draws : s.increment.draws = s.draws := rfl
@[simp] theorem State.increment_draw : s.increment.draw = s.draw := rfl
@[simp] theorem State.increment_bench : s.increment.bench = s.bench := rfl

@[simp] theorem State.take_params (rest : List Input) (d : Draw) : (s.take rest d).params = s.params := rfl
@[simp] theorem State.take_period (rest : List Input) (d : Draw) : (s.take rest d).period = s.period := rfl
@[simp] theorem State.take_periodValid (rest : List Input) (d : Draw) : (s.take rest d).periodValid = s.periodValid := rfl
@[simp] theorem State.take_lifecycle (rest : List Input) (d : Draw) : (s.take rest d).lifecycle = s.lifecycle := rfl
@[simp] theorem State.take_faultCause (rest : List Input) (d : Draw) : (s.take rest d).faultCause = s.faultCause := rfl
@[simp] theorem State.take_faultOp (rest : List Input) (d : Draw) : (s.take rest d).faultOp = s.faultOp := rfl
@[simp] theorem State.take_faultSrc (rest : List Input) (d : Draw) : (s.take rest d).faultSrc = s.faultSrc := rfl
@[simp] theorem State.take_initState (rest : List Input) (d : Draw) : (s.take rest d).initState = s.initState := rfl
@[simp] theorem State.take_initOwner (rest : List Input) (d : Draw) : (s.take rest d).initOwner = s.initOwner := rfl
@[simp] theorem State.take_seqState (rest : List Input) (d : Draw) : (s.take rest d).seqState = s.seqState := rfl
@[simp] theorem State.take_contexts (rest : List Input) (d : Draw) : (s.take rest d).contexts = s.contexts := rfl
@[simp] theorem State.take_hw (rest : List Input) (d : Draw) : (s.take rest d).hw = s.hw := rfl
@[simp] theorem State.take_pcpResp (rest : List Input) (d : Draw) : (s.take rest d).pcpResp = s.pcpResp := rfl
@[simp] theorem State.take_tGhost (rest : List Input) (d : Draw) : (s.take rest d).tGhost = s.tGhost := rfl
@[simp] theorem State.take_incsGhost (rest : List Input) (d : Draw) : (s.take rest d).incsGhost = s.incsGhost := rfl
@[simp] theorem State.take_schedule (rest : List Input) (d : Draw) : (s.take rest d).schedule = rest := rfl
@[simp] theorem State.take_draws (rest : List Input) (d : Draw) : (s.take rest d).draws = s.draws := rfl
@[simp] theorem State.take_draw (rest : List Input) (d : Draw) : (s.take rest d).draw = d := rfl
@[simp] theorem State.take_bench (rest : List Input) (d : Draw) : (s.take rest d).bench = s.bench := rfl

@[simp] theorem State.takeChoice_params (d : Draw) : (s.takeChoice d).params = s.params := rfl
@[simp] theorem State.takeChoice_period (d : Draw) : (s.takeChoice d).period = s.period := rfl
@[simp] theorem State.takeChoice_periodValid (d : Draw) : (s.takeChoice d).periodValid = s.periodValid := rfl
@[simp] theorem State.takeChoice_lifecycle (d : Draw) : (s.takeChoice d).lifecycle = s.lifecycle := rfl
@[simp] theorem State.takeChoice_faultCause (d : Draw) : (s.takeChoice d).faultCause = s.faultCause := rfl
@[simp] theorem State.takeChoice_faultOp (d : Draw) : (s.takeChoice d).faultOp = s.faultOp := rfl
@[simp] theorem State.takeChoice_faultSrc (d : Draw) : (s.takeChoice d).faultSrc = s.faultSrc := rfl
@[simp] theorem State.takeChoice_initState (d : Draw) : (s.takeChoice d).initState = s.initState := rfl
@[simp] theorem State.takeChoice_initOwner (d : Draw) : (s.takeChoice d).initOwner = s.initOwner := rfl
@[simp] theorem State.takeChoice_seqState (d : Draw) : (s.takeChoice d).seqState = s.seqState := rfl
@[simp] theorem State.takeChoice_contexts (d : Draw) : (s.takeChoice d).contexts = s.contexts := rfl
@[simp] theorem State.takeChoice_hw (d : Draw) : (s.takeChoice d).hw = s.hw := rfl
@[simp] theorem State.takeChoice_pcpResp (d : Draw) : (s.takeChoice d).pcpResp = s.pcpResp := rfl
@[simp] theorem State.takeChoice_tGhost (d : Draw) : (s.takeChoice d).tGhost = s.tGhost := rfl
@[simp] theorem State.takeChoice_incsGhost (d : Draw) : (s.takeChoice d).incsGhost = s.incsGhost := rfl
@[simp] theorem State.takeChoice_schedule (d : Draw) : (s.takeChoice d).schedule = s.schedule := rfl
@[simp] theorem State.takeChoice_draws (d : Draw) : (s.takeChoice d).draws = s.draws + 1 := rfl
@[simp] theorem State.takeChoice_draw (d : Draw) : (s.takeChoice d).draw = d := rfl
@[simp] theorem State.takeChoice_bench (d : Draw) : (s.takeChoice d).bench = s.bench := rfl

@[simp] theorem State.enterFault_params (cause : Cause) (op src : Byte) : (s.enterFault cause op src).params = s.params := rfl
@[simp] theorem State.enterFault_period (cause : Cause) (op src : Byte) : (s.enterFault cause op src).period = s.period := rfl
@[simp] theorem State.enterFault_periodValid (cause : Cause) (op src : Byte) : (s.enterFault cause op src).periodValid = s.periodValid := rfl
@[simp] theorem State.enterFault_lifecycle (cause : Cause) (op src : Byte) : (s.enterFault cause op src).lifecycle = .faulted := rfl
@[simp] theorem State.enterFault_faultCause (cause : Cause) (op src : Byte) : (s.enterFault cause op src).faultCause = cause := rfl
@[simp] theorem State.enterFault_faultOp (cause : Cause) (op src : Byte) : (s.enterFault cause op src).faultOp = op := rfl
@[simp] theorem State.enterFault_faultSrc (cause : Cause) (op src : Byte) : (s.enterFault cause op src).faultSrc = src := rfl
@[simp] theorem State.enterFault_initState (cause : Cause) (op src : Byte) : (s.enterFault cause op src).initState = s.initState := rfl
@[simp] theorem State.enterFault_initOwner (cause : Cause) (op src : Byte) : (s.enterFault cause op src).initOwner = s.initOwner := rfl
@[simp] theorem State.enterFault_seqState (cause : Cause) (op src : Byte) : (s.enterFault cause op src).seqState = s.seqState := rfl
@[simp] theorem State.enterFault_contexts (cause : Cause) (op src : Byte) : (s.enterFault cause op src).contexts = s.contexts := rfl
@[simp] theorem State.enterFault_hw (cause : Cause) (op src : Byte) : (s.enterFault cause op src).hw = s.hw := rfl
@[simp] theorem State.enterFault_pcpResp (cause : Cause) (op src : Byte) : (s.enterFault cause op src).pcpResp = s.pcpResp := rfl
@[simp] theorem State.enterFault_tGhost (cause : Cause) (op src : Byte) : (s.enterFault cause op src).tGhost = s.tGhost := rfl
@[simp] theorem State.enterFault_incsGhost (cause : Cause) (op src : Byte) : (s.enterFault cause op src).incsGhost = s.incsGhost := rfl
@[simp] theorem State.enterFault_schedule (cause : Cause) (op src : Byte) : (s.enterFault cause op src).schedule = s.schedule := rfl
@[simp] theorem State.enterFault_draws (cause : Cause) (op src : Byte) : (s.enterFault cause op src).draws = s.draws := rfl
@[simp] theorem State.enterFault_draw (cause : Cause) (op src : Byte) : (s.enterFault cause op src).draw = s.draw := rfl
@[simp] theorem State.enterFault_bench (cause : Cause) (op src : Byte) : (s.enterFault cause op src).bench = s.bench := rfl

@[simp] theorem State.enterModelError_params (op src : Byte) : (s.enterModelError op src).params = s.params := rfl
@[simp] theorem State.enterModelError_period (op src : Byte) : (s.enterModelError op src).period = s.period := rfl
@[simp] theorem State.enterModelError_periodValid (op src : Byte) : (s.enterModelError op src).periodValid = s.periodValid := rfl
@[simp] theorem State.enterModelError_lifecycle (op src : Byte) : (s.enterModelError op src).lifecycle = .faulted := rfl
@[simp] theorem State.enterModelError_faultCause (op src : Byte) : (s.enterModelError op src).faultCause = Cause.ofDraw s.draw.errorCause := rfl
@[simp] theorem State.enterModelError_faultOp (op src : Byte) : (s.enterModelError op src).faultOp = op := rfl
@[simp] theorem State.enterModelError_faultSrc (op src : Byte) : (s.enterModelError op src).faultSrc = src := rfl
@[simp] theorem State.enterModelError_initState (op src : Byte) : (s.enterModelError op src).initState = s.initState := rfl
@[simp] theorem State.enterModelError_initOwner (op src : Byte) : (s.enterModelError op src).initOwner = s.initOwner := rfl
@[simp] theorem State.enterModelError_seqState (op src : Byte) : (s.enterModelError op src).seqState = s.seqState := rfl
@[simp] theorem State.enterModelError_contexts (op src : Byte) : (s.enterModelError op src).contexts = s.contexts := rfl
@[simp] theorem State.enterModelError_hw (op src : Byte) : (s.enterModelError op src).hw = s.hw := rfl
@[simp] theorem State.enterModelError_pcpResp (op src : Byte) : (s.enterModelError op src).pcpResp = s.pcpResp := rfl
@[simp] theorem State.enterModelError_tGhost (op src : Byte) : (s.enterModelError op src).tGhost = s.tGhost := rfl
@[simp] theorem State.enterModelError_incsGhost (op src : Byte) : (s.enterModelError op src).incsGhost = s.incsGhost := rfl
@[simp] theorem State.enterModelError_schedule (op src : Byte) : (s.enterModelError op src).schedule = s.schedule := rfl
@[simp] theorem State.enterModelError_draws (op src : Byte) : (s.enterModelError op src).draws = s.draws := rfl
@[simp] theorem State.enterModelError_draw (op src : Byte) : (s.enterModelError op src).draw = s.draw := rfl
@[simp] theorem State.enterModelError_bench (op src : Byte) : (s.enterModelError op src).bench = s.bench := rfl

@[simp] theorem State.applyReset_params (d : ResetDraw) : (s.applyReset d).params = s.params := rfl
@[simp] theorem State.applyReset_period (d : ResetDraw) : (s.applyReset d).period = 0 := rfl
@[simp] theorem State.applyReset_periodValid (d : ResetDraw) : (s.applyReset d).periodValid = false := rfl
@[simp] theorem State.applyReset_lifecycle (d : ResetDraw) : (s.applyReset d).lifecycle = .uninit := rfl
@[simp] theorem State.applyReset_faultCause (d : ResetDraw) : (s.applyReset d).faultCause = .none := rfl
@[simp] theorem State.applyReset_faultOp (d : ResetDraw) : (s.applyReset d).faultOp = 0 := rfl
@[simp] theorem State.applyReset_faultSrc (d : ResetDraw) : (s.applyReset d).faultSrc = 0 := rfl
@[simp] theorem State.applyReset_initState (d : ResetDraw) : (s.applyReset d).initState = .idle := rfl
@[simp] theorem State.applyReset_initOwner (d : ResetDraw) : (s.applyReset d).initOwner = none := rfl
@[simp] theorem State.applyReset_seqState (d : ResetDraw) : (s.applyReset d).seqState = .idle := rfl
@[simp] theorem State.applyReset_contexts (d : ResetDraw) : (s.applyReset d).contexts = s.contexts.map fun _ => Context.atReset := rfl
@[simp] theorem State.applyReset_hw (d : ResetDraw) : (s.applyReset d).hw = Peripheral.atReset s.params d := rfl
@[simp] theorem State.applyReset_pcpResp (d : ResetDraw) : (s.applyReset d).pcpResp = none := rfl
@[simp] theorem State.applyReset_tGhost (d : ResetDraw) : (s.applyReset d).tGhost = none := rfl
@[simp] theorem State.applyReset_incsGhost (d : ResetDraw) : (s.applyReset d).incsGhost = 0 := rfl
@[simp] theorem State.applyReset_schedule (d : ResetDraw) : (s.applyReset d).schedule = s.schedule := rfl
@[simp] theorem State.applyReset_draws (d : ResetDraw) : (s.applyReset d).draws = s.draws := rfl
@[simp] theorem State.applyReset_draw (d : ResetDraw) : (s.applyReset d).draw = s.draw := rfl
@[simp] theorem State.applyReset_bench (d : ResetDraw) : (s.applyReset d).bench = s.bench := rfl

end Sys2Proof.Machine
end

