-- ==== Sys2Proof/Laws/Context.lean ====
section
/-!
SUPPORT. The registers of one context and of the others (10_state.md R31 to R34): reading after a change of context `r`.
-/

namespace Sys2Proof.Machine

variable {s : State} {r q : Byte} {c : Context}

theorem context?_some_iff : s.context? r = some c ↔ r ≠ rtcIrq ∧ s.contexts[r.toNat]? = some c := by
  unfold State.context?
  split <;> simp_all

/-- A change of context `r` leaves every other context alone (R154). -/
theorem modifyContext_other (f : Context → Context) (h : q ≠ r) :
    (s.modifyContext r f).context? q = s.context? q := by
  have hn : r.toNat ≠ q.toNat := fun e => h (BitVec.eq_of_toNat_eq e.symm)
  simp [State.context?, hn]

/-- A change of context `r` as seen at `r`. -/
theorem modifyContext_same (f : Context → Context) :
    (s.modifyContext r f).context? r = (s.context? r).map f := by
  unfold State.context?
  split <;> simp

/-- A change of an existing context is the replacement of that context. -/
theorem modifyContext_eq_set (f : Context → Context) (h : s.context? r = some c) :
    s.modifyContext r f = { s with contexts := s.contexts.set r.toNat (f c) } := by
  have hc := (context?_some_iff.mp h).2
  simp only [State.modifyContext]
  congr 1
  apply List.ext_getElem?
  intro i
  simp only [List.getElem?_modify, List.getElem?_set]
  by_cases hi : r.toNat = i
  · subst hi
    obtain ⟨hl, he⟩ := List.getElem?_eq_some_iff.mp hc
    simp [hl, he]
  · simp [hi]

@[simp] theorem modifyContext_length (f : Context → Context) :
    (s.modifyContext r f).contexts.length = s.contexts.length := by
  simp

end Sys2Proof.Machine
end

