-- ==== Sys2Proof/Laws/Ops.lean ====
section
/-!
SUPPORT. What each shared operation can do, said once: later proofs cite these lemmas and do not unfold the operation.
-/

namespace Sys2Proof.Machine

variable {s t : State}

/-- A state that is its own update: enterFault changes four fields and no other (R236, R237). -/
theorem enterFault_eq (s : State) (cause : Cause) (op src : Byte) :
    s.enterFault cause op src =
      { s with lifecycle := .faulted, faultCause := cause, faultOp := op, faultSrc := src } := rfl

/-- A model error is a fault entry, with one of the five causes (R25, R46). -/
theorem ofDraw_ne_none (k : Fin 5) : Cause.ofDraw k ≠ .none := by
  revert k; decide

/-- Every cause but NONE may be the one of a model error: the draw leaves it open. -/
theorem ofDraw_surjective {c : Cause} (h : c ≠ .none) : ∃ k, Cause.ofDraw k = c := by
  cases c
  · exact absurd rfl h
  · exact ⟨0, rfl⟩
  · exact ⟨1, rfl⟩
  · exact ⟨2, rfl⟩
  · exact ⟨3, rfl⟩
  · exact ⟨4, rfl⟩

theorem live_iff : s.live = true ↔ s.lifecycle ≠ .faulted := by
  simp [State.live]

theorem guarded_next_iff {e : Bool} {u : State} :
    guarded s e u = .next t ↔ e = true ∧ s.lifecycle ≠ .faulted ∧ t = u := by
  unfold guarded
  by_cases h : e = true ∧ s.lifecycle ≠ .faulted
  · rw [if_pos (by simpa [live_iff] using h)]
    simp [h, eq_comm]
  · rw [if_neg (by simpa [live_iff] using h)]
    simpa using fun he hl => absurd ⟨he, hl⟩ h

theorem sequencerStep_next_iff {q : SeqState} {u : State} :
    sequencerStep s q u = .next t ↔ s.seqState = q ∧ s.lifecycle ≠ .faulted ∧ t = u := by
  simp [sequencerStep, guarded_next_iff]

theorem initStep_next_iff {q : InitState} {u : State} :
    initStep s q u = .next t ↔ s.initState = q ∧ s.lifecycle ≠ .faulted ∧ t = u := by
  simp [initStep, guarded_next_iff]

theorem softwareReady_none_iff {src : Byte} :
    s.softwareReady src = none ↔ ∃ c, s.context? src = some c ∧ c.portState = .idle := by
  unfold State.softwareReady
  split <;> simp [*]

theorem requestReady_none_iff {src : Byte} :
    s.requestReady src = none ↔ s.lifecycle ≠ .faulted ∧
      ((src = rtcIrq ∧ s.seqState = .idle) ∨
        (src ≠ rtcIrq ∧ ∃ c, s.context? src = some c ∧ c.portState = .idle)) := by
  unfold State.requestReady
  by_cases h1 : s.lifecycle = .faulted <;> by_cases h2 : src = rtcIrq <;>
    simp [h1, h2, softwareReady_none_iff]

theorem initReady_none_iff {src : Byte} :
    s.initReady src = none ↔ s.lifecycle ≠ .faulted ∧
      (src = rtcIrq ∨ (src ≠ rtcIrq ∧ ∃ c, s.context? src = some c ∧ c.portState = .idle)) := by
  unfold State.initReady
  by_cases h1 : s.lifecycle = .faulted <;> by_cases h2 : src = rtcIrq <;>
    simp [h1, h2, softwareReady_none_iff]

/-- Everything an acceptance of INIT can do (R180). -/
theorem acceptInit_next {src : Byte} (h : acceptInit src s = .next t) :
    (src = rtcIrq ∧ t = s.enterFault .illegalContext 0x10 src) ∨
    (src ≠ rtcIrq ∧ s.lifecycle ≠ .uninit ∧ t = s.enterFault .alreadyInitialized 0x10 src) ∨
    (src ≠ rtcIrq ∧ s.lifecycle = .uninit ∧ (∃ c, s.context? src = some c ∧ c.portState = .idle) ∧
      t = { s.modifyContext src (fun c => { c with portState := .initWait }) with
        lifecycle := .initializing, initOwner := some src, initState := .zero }) := by
  unfold acceptInit at h
  split at h
  · cases h
  · rename_i hr
    obtain ⟨-, hr⟩ := initReady_none_iff.mp hr
    split at h
    · exact .inl ⟨by assumption, by cases h; rfl⟩
    · rename_i hs
      split at h
      · exact .inr (.inl ⟨hs, by assumption, by cases h; rfl⟩)
      · rename_i hl
        exact .inr (.inr ⟨hs, by simpa using hl, by simpa [hs] using hr, by cases h; rfl⟩)

/-- Everything an acceptance of NOW can do (R141). -/
theorem acceptNow_next {src : Byte} (h : acceptNow src s = .next t) :
    (src = rtcIrq ∧ t = s.enterFault .illegalContext 0x20 src) ∨
    (src ≠ rtcIrq ∧ s.lifecycle ≠ .running ∧ t = s.enterFault .notInitialized 0x20 src) ∨
    (src ≠ rtcIrq ∧ s.lifecycle = .running ∧ (∃ c, s.context? src = some c ∧ c.portState = .idle) ∧
      t = s.modifyContext src fun c => { c with pLatch := some s.period, portState := .haveP }) := by
  unfold acceptNow at h
  split at h
  · cases h
  · rename_i hr
    obtain ⟨-, hr⟩ := requestReady_none_iff.mp hr
    split at h
    · exact .inl ⟨by assumption, by cases h; rfl⟩
    · rename_i hs
      split at h
      · exact .inr (.inl ⟨hs, by assumption, by cases h; rfl⟩)
      · rename_i hl
        exact .inr (.inr ⟨hs, by simpa using hl, by simpa [hs] using hr, by cases h; rfl⟩)

/-- Everything an acceptance of IRQ_SERVICE can do (R170). -/
theorem acceptIrq_next {src : Byte} (h : acceptIrq src s = .next t) :
    (src ≠ rtcIrq ∧ t = s.enterFault .illegalContext 0x30 src) ∨
    (src = rtcIrq ∧ s.periodValid = false ∧ t = s.enterFault .notInitialized 0x30 src) ∨
    (src = rtcIrq ∧ s.periodValid = true ∧ s.seqState = .idle ∧ t = s.setSeqState .chkOvf) := by
  unfold acceptIrq at h
  split at h
  · cases h
  · rename_i hr
    obtain ⟨-, hr⟩ := requestReady_none_iff.mp hr
    split at h
    · exact .inl ⟨by assumption, by cases h; rfl⟩
    · rename_i hs
      have hs : src = rtcIrq := by simpa using hs
      split at h
      · exact .inr (.inl ⟨hs, by assumption, by cases h; rfl⟩)
      · rename_i hl
        exact .inr (.inr ⟨hs, by simpa using hl, by simpa [hs] using hr, by cases h; rfl⟩)

/-- Everything a reserved request word can do (R234). -/
theorem acceptReserved_next {src w : Byte} (h : acceptReserved src w s = .next t) :
    t = s.enterFault .illegalCommand w src := by
  unfold acceptReserved at h
  split at h
  · cases h
  · cases h; rfl

/-- Every acceptance and every step leaves a faulted block alone (R14). -/
theorem acceptInit_live {src : Byte} (h : acceptInit src s = .next t) : s.lifecycle ≠ .faulted := by
  unfold acceptInit at h
  split at h
  · cases h
  · rename_i hr; exact (initReady_none_iff.mp hr).1

theorem acceptNow_live {src : Byte} (h : acceptNow src s = .next t) : s.lifecycle ≠ .faulted := by
  unfold acceptNow at h
  split at h
  · cases h
  · rename_i hr; exact (requestReady_none_iff.mp hr).1

theorem acceptIrq_live {src : Byte} (h : acceptIrq src s = .next t) : s.lifecycle ≠ .faulted := by
  unfold acceptIrq at h
  split at h
  · cases h
  · rename_i hr; exact (requestReady_none_iff.mp hr).1

theorem acceptReserved_live {src w : Byte} (h : acceptReserved src w s = .next t) :
    s.lifecycle ≠ .faulted := by
  unfold acceptReserved at h
  split at h
  · cases h
  · rename_i hr; exact (requestReady_none_iff.mp hr).1

/-- The flag a check reads is the flag (R172, R175, R215). -/
@[simp] theorem readFlag_eq (s : State) (k : Kind) : s.readFlag k = s.hw.event.get k :=
  joinLow_flag _ _

/-- The counter a step reads is COUNTER's low W bits (R143, R194, R210). -/
@[simp] theorem respCounter_getCounter (h : Peripheral) (p : Params) (d : Draw) :
    respCounter p.W (h.getCounter p d) = trunc p.W h.counter := by
  simp [respCounter, Peripheral.getCounter]

@[simp] theorem sampleCounter_eq (s : State) : s.sampleCounter = trunc s.params.W s.hw.counter := by
  simp [State.sampleCounter]

@[simp] theorem respRefused_setCompareResp (p : Params) (d : Draw) (slot : BitVec 4) :
    respRefused (setCompareResp p d slot) = !acceptsCompare p d slot :=
  joinLow_flag _ _

/-- Everything a tick does to the peripheral (R114, R115, R116). -/
theorem tick_eq (h : Peripheral) (p : Params) :
    h.tick p = { h with
      counter := trunc p.W (h.counter + 1)
      event := ⟨h.event.ovf || (overflows p h.counter && mayLatch p h .ovf),
        h.event.cmp || (matchesCompare h (trunc p.W (h.counter + 1)) && mayLatch p h .cmp)⟩ } := rfl

theorem overflows_iff {p : Params} {v : Word} (h : p.W ≤ 32) : overflows p v = true ↔ v.toNat = 2 ^ p.W - 1 := by
  rw [← cmax_toNat h]
  simp [overflows, BitVec.toNat_eq]

/-- in.setcmp fails iff the slot does not exist or the peripheral refuses (R232). -/
theorem compareFails_eq (s : State) :
    s.compareFails = !(decide (s.params.cmpSlot.toNat < s.params.nSlots) && s.draw.accepts) := by
  by_cases h : s.params.cmpSlot.toNat < s.params.nSlots <;> simp [State.compareFails, acceptsCompare, h]

/-- Everything rd.sample_c can do (R143): a model error when P_LATCH[r] holds no value (R46), its effect otherwise. -/
theorem execRdSampleC_next {r : Byte} (h : execRdSampleC r s = .next t) :
    ∃ c, s.context? r = some c ∧ c.portState = .haveP ∧ s.lifecycle ≠ .faulted ∧
      ((c.pLatch = none ∧ t = s.enterModelError 0x81 r) ∨
       ∃ p, c.pLatch = some p ∧ t = s.modifyContext r fun c => c.deliverStamp s.params.W p s.sampleCounter) := by
  unfold execRdSampleC at h
  split at h
  · cases h
  · rename_i c hc
    split at h
    · rename_i he
      refine ⟨c, hc, he.1, he.2, ?_⟩
      split at h
      · exact .inl ⟨by assumption, by cases h; rfl⟩
      · rename_i p hp
        exact .inr ⟨p, hp, by cases h; rfl⟩
    · cases h

/-- Everything in.setcmp can do (R191). -/
theorem execInSetcmp_next (h : execInSetcmp s = .next t) :
    s.initState = .setcmp ∧ s.lifecycle ≠ .faulted ∧
      ((s.compareFails = true ∧ t = s.enterFault .initFailed 0xA2 s.faultOwner) ∨
       (s.compareFails = false ∧
        t = (s.setHw (s.hw.setCompare s.params s.draw s.params.cmpSlot s.compareImmediate)).setInitState .clear)) := by
  obtain ⟨hq, hl, ht⟩ := initStep_next_iff.mp h
  refine ⟨hq, hl, ?_⟩
  cases hf : s.compareFails
  · exact .inr ⟨rfl, by simpa [hf] using ht⟩
  · exact .inl ⟨rfl, by simpa [hf] using ht⟩

/-- Everything in.en_cmp can do (R196): a model error when INIT_OWNER holds no value (R46), its effect otherwise. -/
theorem execInEnCmp_next (h : execInEnCmp s = .next t) :
    s.initState = .enCmp ∧ s.lifecycle ≠ .faulted ∧
      ((s.initOwner = none ∧ t = s.enterModelError 0xA7 s.faultOwner) ∨
       ∃ o c, s.initOwner = some o ∧ s.context? o = some c ∧
        t = { ((s.setHw (s.hw.enableInterrupt .cmp)).setInitState .idle).modifyContext o
              (fun c => { c with portState := .idle, response := some .done }) with
            lifecycle := .running }) := by
  unfold execInEnCmp at h
  split at h
  · rename_i he
    refine ⟨he.1, he.2, ?_⟩
    split at h
    · exact .inl ⟨by assumption, by cases h; rfl⟩
    · rename_i o ho
      split at h
      · cases h
      · rename_i c hc
        exact .inr ⟨o, c, ho, hc, by cases h; rfl⟩
  · cases h

/-- Everything sq.enter can do (R170): it never faults. -/
theorem execSqEnter_next (h : execSqEnter s = .next t) :
    s.periodValid = true ∧ s.seqState = .idle ∧ s.lifecycle ≠ .faulted ∧ t = s.setSeqState .chkOvf := by
  unfold execSqEnter at h
  split at h
  · rename_i hv
    rcases acceptIrq_next h with ⟨hn, -⟩ | ⟨-, hf, -⟩ | ⟨-, -, hq, ht⟩
    · exact absurd rfl hn
    · simp [hv] at hf
    · exact ⟨hv, hq, acceptIrq_live h, ht⟩
  · cases h

/-- Reading a bit after writing one. -/
theorem KindBits.get_set (b : KindBits) (k k' : Kind) (v : Bool) :
    (b.set k v).get k' = if k = k' then v else b.get k' := by
  cases k <;> cases k' <;> rfl

/-! SET_COMPARE writes CC alone, if anything (R211). -/

variable (h : Peripheral) (p : Params) (d : Draw) (slot : BitVec 4) (data : Word)

@[simp] theorem Peripheral.setCompare_event : (h.setCompare p d slot data).event = h.event := by
  unfold Peripheral.setCompare; split <;> rfl

@[simp] theorem Peripheral.setCompare_inten : (h.setCompare p d slot data).inten = h.inten := by
  unfold Peripheral.setCompare; split <;> rfl

@[simp] theorem Peripheral.setCompare_running : (h.setCompare p d slot data).running = h.running := by
  unfold Peripheral.setCompare; split <;> rfl

@[simp] theorem Peripheral.setCompare_counter : (h.setCompare p d slot data).counter = h.counter := by
  unfold Peripheral.setCompare; split <;> rfl

@[simp] theorem Peripheral.setCompare_clearPending :
    (h.setCompare p d slot data).clearPending = h.clearPending := by
  unfold Peripheral.setCompare; split <;> rfl

/-- CC stays W bits wide (R38). -/
theorem Peripheral.setCompare_cc_lt (hc : h.cc.toNat < 2 ^ p.W) :
    (h.setCompare p d slot data).cc.toNat < 2 ^ p.W := by
  unfold Peripheral.setCompare; split
  · exact trunc_lt _ _
  · exact hc

end Sys2Proof.Machine
end

