-- ==== Sys2Proof/Laws/Exec.lean ====
section
/-!
SUPPORT. What an instruction can do, said once for all of them: exec answers a next state only for a block that is not
faulted, and the next state is either a fault entry of that instruction or its own effect.
-/

namespace Sys2Proof.Machine

/-- The fault entries of an instruction (60_exceptions.md R230 to R235), and its model errors (R46). -/
def FaultEffect (s t : State) : Instr → Prop
  | .init src =>
    (src = rtcIrq ∧ t = s.enterFault .illegalContext 0x10 src) ∨
      (src ≠ rtcIrq ∧ s.lifecycle ≠ .uninit ∧ t = s.enterFault .alreadyInitialized 0x10 src)
  | .now src =>
    (src = rtcIrq ∧ t = s.enterFault .illegalContext 0x20 src) ∨
      (src ≠ rtcIrq ∧ s.lifecycle ≠ .running ∧ t = s.enterFault .notInitialized 0x20 src)
  | .irqService src =>
    (src ≠ rtcIrq ∧ t = s.enterFault .illegalContext 0x30 src) ∨
      (src = rtcIrq ∧ s.periodValid = false ∧ t = s.enterFault .notInitialized 0x30 src)
  | .getCounter => False
  | .setCompare _ _ => False
  | .clearCounter => False
  | .enableCounter => False
  | .enableInterrupt _ => False
  | .isEventTriggered _ => False
  | .resetEvent _ => False
  | .rdSampleP src =>
    (src = rtcIrq ∧ t = s.enterFault .illegalContext 0x20 src) ∨
      (src ≠ rtcIrq ∧ s.lifecycle ≠ .running ∧ t = s.enterFault .notInitialized 0x20 src)
  | .rdSampleC r =>
    ∃ c, s.context? r = some c ∧ c.portState = .haveP ∧ c.pLatch = none ∧ t = s.enterModelError 0x81 r
  | .sqEnter => False
  | .sqChkOvf => False
  | .sqAckOvf => False
  | .sqIncOvf => False
  | .sqChkCmp => False
  | .sqAckCmp => False
  | .sqIncCmp => False
  | .sqExit => False
  | .inZero => False
  | .inSetcmp =>
    s.initState = .setcmp ∧ s.compareFails = true ∧ t = s.enterFault .initFailed 0xA2 s.faultOwner
  | .inClear => False
  | .inStart => False
  | .inPoll => False
  | .inEnOvf => False
  | .inEnCmp => s.initState = .enCmp ∧ s.initOwner = none ∧ t = s.enterModelError 0xA7 s.faultOwner
  | .hwTick => False
  | .hwClearApply => False

/-- A context that may issue a request: its port is idle. -/
def IdleAt (s : State) (r : Byte) : Prop := ∃ c, s.context? r = some c ∧ c.portState = .idle

/-- An instruction's own effect, with the condition that enables it. -/
def OwnEffect (s t : State) : Instr → Prop
  | .init src =>
    src ≠ rtcIrq ∧ s.lifecycle = .uninit ∧ IdleAt s src ∧
      t = { s.modifyContext src (fun c => { c with portState := .initWait }) with
        lifecycle := .initializing, initOwner := some src, initState := .zero }
  | .now src =>
    src ≠ rtcIrq ∧ s.lifecycle = .running ∧ IdleAt s src ∧
      t = s.modifyContext src fun c => { c with pLatch := some s.period, portState := .haveP }
  | .rdSampleP src =>
    src ≠ rtcIrq ∧ s.lifecycle = .running ∧ IdleAt s src ∧
      t = s.modifyContext src fun c => { c with pLatch := some s.period, portState := .haveP }
  | .irqService src => src = rtcIrq ∧ s.periodValid = true ∧ s.seqState = .idle ∧ t = s.setSeqState .chkOvf
  | .getCounter => s.bench = true ∧ t = s.setPcpResp (s.hw.getCounter s.params s.draw)
  | .setCompare slot data =>
    s.bench = true ∧ t = (s.setHw (s.hw.setCompare s.params s.draw slot data)).setPcpResp (setCompareResp s.params s.draw slot)
  | .clearCounter => s.bench = true ∧ t = s.setHw s.hw.clearCounter
  | .enableCounter => s.bench = true ∧ t = s.setHw s.hw.enableCounter
  | .enableInterrupt k => s.bench = true ∧ t = s.setHw (s.hw.enableInterrupt k)
  | .isEventTriggered k => s.bench = true ∧ t = s.setPcpResp (s.hw.isEventTriggered s.draw k)
  | .resetEvent k => s.bench = true ∧ t = s.setHw (s.hw.resetEvent k)
  | .rdSampleC r =>
    ∃ c p, s.context? r = some c ∧ c.portState = .haveP ∧ c.pLatch = some p ∧
      t = s.modifyContext r fun c => c.deliverStamp s.params.W p s.sampleCounter
  | .sqEnter => s.periodValid = true ∧ s.seqState = .idle ∧ t = s.setSeqState .chkOvf
  | .sqChkOvf => s.seqState = .chkOvf ∧ t = s.setSeqState (if s.readFlag .ovf then .ackOvf else .chkCmp)
  | .sqAckOvf => s.seqState = .ackOvf ∧ t = (s.setHw (s.hw.resetEvent .ovf)).setSeqState .incOvf
  | .sqIncOvf => s.seqState = .incOvf ∧ t = s.increment.setSeqState .chkCmp
  | .sqChkCmp => s.seqState = .chkCmp ∧ t = s.setSeqState (if s.readFlag .cmp then .ackCmp else .exit)
  | .sqAckCmp => s.seqState = .ackCmp ∧ t = (s.setHw (s.hw.resetEvent .cmp)).setSeqState .incCmp
  | .sqIncCmp => s.seqState = .incCmp ∧ t = s.increment.setSeqState .exit
  | .sqExit => s.seqState = .exit ∧ t = s.setSeqState .idle
  | .inZero =>
    s.initState = .zero ∧ t = { s with period := 0, periodValid := true, incsGhost := 0, initState := .setcmp }
  | .inSetcmp =>
    s.initState = .setcmp ∧ s.compareFails = false ∧
      t = (s.setHw (s.hw.setCompare s.params s.draw s.params.cmpSlot s.compareImmediate)).setInitState .clear
  | .inClear => s.initState = .clear ∧ t = (s.setHw s.hw.clearCounter).setInitState .start
  | .inStart => s.initState = .start ∧ t = (s.setHw s.hw.enableCounter).setInitState .poll
  | .inPoll =>
    s.initState = .poll ∧ t = s.setInitState
      (if respCounter s.params.W (s.hw.getCounter s.params s.draw) = 0 then .enOvf else .poll)
  | .inEnOvf => s.initState = .enOvf ∧ t = (s.setHw (s.hw.enableInterrupt .ovf)).setInitState .enCmp
  | .inEnCmp =>
    s.initState = .enCmp ∧ ∃ o c, s.initOwner = some o ∧ s.context? o = some c ∧
      t = { ((s.setHw (s.hw.enableInterrupt .cmp)).setInitState .idle).modifyContext o
            (fun c => { c with portState := .idle, response := some .done }) with
          lifecycle := .running }
  | .hwTick => s.hw.running = true ∧ t = { s with hw := s.hw.tick s.params, tGhost := s.tGhost.map (· + 1) }
  | .hwClearApply => s.hw.clearPending = true ∧ t = { s with hw := s.hw.applyClear, tGhost := some 0 }

/-- Everything an instruction can do. -/
theorem exec_next {i : Instr} {s t : State} (h : exec i s = .next t) :
    s.lifecycle ≠ .faulted ∧ (FaultEffect s t i ∨ OwnEffect s t i) := by
  cases i with
  | init src =>
    refine ⟨acceptInit_live h, ?_⟩
    rcases acceptInit_next h with h | h | h
    · exact .inl (.inl h)
    · exact .inl (.inr h)
    · exact .inr h
  | now src =>
    refine ⟨acceptNow_live h, ?_⟩
    rcases acceptNow_next h with h | h | h
    · exact .inl (.inl h)
    · exact .inl (.inr h)
    · exact .inr h
  | rdSampleP src =>
    refine ⟨acceptNow_live h, ?_⟩
    rcases acceptNow_next h with h | h | h
    · exact .inl (.inl h)
    · exact .inl (.inr h)
    · exact .inr h
  | irqService src =>
    refine ⟨acceptIrq_live h, ?_⟩
    rcases acceptIrq_next h with h | h | h
    · exact .inl (.inl h)
    · exact .inl (.inr h)
    · exact .inr h
  | rdSampleC r =>
    obtain ⟨c, hc, hp, hl, ⟨hv, ht⟩ | ⟨p, hv, ht⟩⟩ := execRdSampleC_next h
    · exact ⟨hl, .inl ⟨c, hc, hp, hv, ht⟩⟩
    · exact ⟨hl, .inr ⟨c, p, hc, hp, hv, ht⟩⟩
  | sqEnter =>
    obtain ⟨hv, hq, hl, ht⟩ := execSqEnter_next h
    exact ⟨hl, .inr ⟨hv, hq, ht⟩⟩
  | inSetcmp =>
    obtain ⟨hq, hl, ⟨hf, ho⟩ | ⟨hf, ht⟩⟩ := execInSetcmp_next h
    · exact ⟨hl, .inl ⟨hq, hf, ho⟩⟩
    · exact ⟨hl, .inr ⟨hq, hf, ht⟩⟩
  | inEnCmp =>
    obtain ⟨hq, hl, hf | ho⟩ := execInEnCmp_next h
    · exact ⟨hl, .inl ⟨hq, hf⟩⟩
    · exact ⟨hl, .inr ⟨hq, ho⟩⟩
  | getCounter => obtain ⟨hb, hl, ht⟩ := guarded_next_iff.mp h; exact ⟨hl, .inr ⟨hb, ht⟩⟩
  | setCompare slot data => obtain ⟨hb, hl, ht⟩ := guarded_next_iff.mp h; exact ⟨hl, .inr ⟨hb, ht⟩⟩
  | clearCounter => obtain ⟨hb, hl, ht⟩ := guarded_next_iff.mp h; exact ⟨hl, .inr ⟨hb, ht⟩⟩
  | enableCounter => obtain ⟨hb, hl, ht⟩ := guarded_next_iff.mp h; exact ⟨hl, .inr ⟨hb, ht⟩⟩
  | enableInterrupt k => obtain ⟨hb, hl, ht⟩ := guarded_next_iff.mp h; exact ⟨hl, .inr ⟨hb, ht⟩⟩
  | isEventTriggered k => obtain ⟨hb, hl, ht⟩ := guarded_next_iff.mp h; exact ⟨hl, .inr ⟨hb, ht⟩⟩
  | resetEvent k => obtain ⟨hb, hl, ht⟩ := guarded_next_iff.mp h; exact ⟨hl, .inr ⟨hb, ht⟩⟩
  | sqChkOvf => obtain ⟨hq, hl, ht⟩ := sequencerStep_next_iff.mp h; exact ⟨hl, .inr ⟨hq, ht⟩⟩
  | sqAckOvf => obtain ⟨hq, hl, ht⟩ := sequencerStep_next_iff.mp h; exact ⟨hl, .inr ⟨hq, ht⟩⟩
  | sqIncOvf => obtain ⟨hq, hl, ht⟩ := sequencerStep_next_iff.mp h; exact ⟨hl, .inr ⟨hq, ht⟩⟩
  | sqChkCmp => obtain ⟨hq, hl, ht⟩ := sequencerStep_next_iff.mp h; exact ⟨hl, .inr ⟨hq, ht⟩⟩
  | sqAckCmp => obtain ⟨hq, hl, ht⟩ := sequencerStep_next_iff.mp h; exact ⟨hl, .inr ⟨hq, ht⟩⟩
  | sqIncCmp => obtain ⟨hq, hl, ht⟩ := sequencerStep_next_iff.mp h; exact ⟨hl, .inr ⟨hq, ht⟩⟩
  | sqExit => obtain ⟨hq, hl, ht⟩ := sequencerStep_next_iff.mp h; exact ⟨hl, .inr ⟨hq, ht⟩⟩
  | inZero => obtain ⟨hq, hl, ht⟩ := initStep_next_iff.mp h; exact ⟨hl, .inr ⟨hq, ht⟩⟩
  | inClear => obtain ⟨hq, hl, ht⟩ := initStep_next_iff.mp h; exact ⟨hl, .inr ⟨hq, ht⟩⟩
  | inStart => obtain ⟨hq, hl, ht⟩ := initStep_next_iff.mp h; exact ⟨hl, .inr ⟨hq, ht⟩⟩
  | inPoll => obtain ⟨hq, hl, ht⟩ := initStep_next_iff.mp h; exact ⟨hl, .inr ⟨hq, ht⟩⟩
  | inEnOvf => obtain ⟨hq, hl, ht⟩ := initStep_next_iff.mp h; exact ⟨hl, .inr ⟨hq, ht⟩⟩
  | hwTick => obtain ⟨hq, hl, ht⟩ := guarded_next_iff.mp h; exact ⟨hl, .inr ⟨hq, ht⟩⟩
  | hwClearApply => obtain ⟨hq, hl, ht⟩ := guarded_next_iff.mp h; exact ⟨hl, .inr ⟨hq, ht⟩⟩

/-- A fault entry changes the three fault registers and LIFECYCLE, and nothing else (R236, R237). -/
theorem FaultEffect.enters {i : Instr} {s t : State} (h : FaultEffect s t i) :
    ∃ cause op src, cause ≠ .none ∧ t = s.enterFault cause op src := by
  cases i with
  | init src => rcases h with ⟨-, h⟩ | ⟨-, -, h⟩ <;> exact ⟨_, _, _, by simp, h⟩
  | now src => rcases h with ⟨-, h⟩ | ⟨-, -, h⟩ <;> exact ⟨_, _, _, by simp, h⟩
  | rdSampleP src => rcases h with ⟨-, h⟩ | ⟨-, -, h⟩ <;> exact ⟨_, _, _, by simp, h⟩
  | irqService src => rcases h with ⟨-, h⟩ | ⟨-, -, h⟩ <;> exact ⟨_, _, _, by simp, h⟩
  | inSetcmp => obtain ⟨-, -, h⟩ := h; exact ⟨_, _, _, by simp, h⟩
  | rdSampleC r => obtain ⟨_, -, -, -, h⟩ := h; exact ⟨_, _, _, ofDraw_ne_none _, h⟩
  | inEnCmp => obtain ⟨-, -, h⟩ := h; exact ⟨_, _, _, ofDraw_ne_none _, h⟩
  | _ => exact h.elim

/-- An instruction's own effect never enters FAULTED (R256). -/
theorem OwnEffect.live {i : Instr} {s t : State} (hs : s.lifecycle ≠ .faulted) (h : OwnEffect s t i) :
    t.lifecycle ≠ .faulted := by
  cases i <;> simp only [OwnEffect] at h
  all_goals first
    | (obtain ⟨-, rfl⟩ := h; exact hs)
    | (obtain ⟨-, -, rfl⟩ := h; exact hs)
    | (obtain ⟨-, -, -, rfl⟩ := h; simp; done)
    | (obtain ⟨-, -, -, rfl⟩ := h; exact hs)
    | (obtain ⟨-, _, _, -, -, rfl⟩ := h; simp; done)
    | (obtain ⟨_, _, -, -, -, rfl⟩ := h; exact hs)

end Sys2Proof.Machine
end

