-- ==== Sys2Proof/Laws/Fetch.lean ====
section
/-!
SUPPORT. What a step can do, said once: it resets, takes a line or a line of text, or uses a free choice.
-/

namespace Sys2Proof.Machine

variable {s t : State}

/-- Everything a line can do: an instruction's meaning, or a reserved request word's fault. -/
theorem runLine_next {l : Line} (h : runLine l s = .next t) :
    (∃ i, decode l = .instr i ∧ exec i s = .next t) ∨
    (∃ src w, l = .urp src w ∧ s.lifecycle ≠ .faulted ∧ t = s.enterFault .illegalCommand w src) := by
  unfold runLine at h
  split at h
  · rename_i i hi
    exact .inl ⟨i, hi, h⟩
  · rename_i r hr
    unfold runRejected at h
    split at h
    · exact .inr ⟨_, _, rfl, acceptReserved_live h, acceptReserved_next h⟩
    all_goals cases h

/-- Everything a free choice can do: a line's effect, or nothing but the bookkeeping. -/
theorem runChoice_next {c : Choice} (h : runChoice c s = .next t) :
    runLine (lineOfChoice c) (s.takeChoice c.draw) = .next t ∨ t = s.takeChoice c.draw := by
  simp only [runChoice] at h
  split at h
  · split at h
    · rename_i hu
      exact .inl (by cases h; exact hu)
    · cases h
    · exact .inr (by cases h; rfl)
  · exact .inr (by cases h; rfl)

/-- Everything a line of text can do: the first line it stands for, with the others still to come. -/
theorem runText_next {a : Agent} {m : Mnemonic} {d : Draw} {rest : List Input} (h : runText a m d rest s = .next t) :
    ∃ l ls, s.assemble a m = some (l :: ls) ∧
      runLine l (s.take (ls.map (fun k => .line k d) ++ rest) d) = .next t := by
  unfold runText at h
  split at h
  · rename_i l ls ha
    exact ⟨l, ls, ha, h⟩
  · cases h

/-- A line of text stands for at least one line. -/
theorem assemble_ne_nil {a : Agent} {m : Mnemonic} : s.assemble a m ≠ some [] := by
  intro h
  cases a <;> cases m <;> simp_all [State.assemble, serviceLines, initRunLines]

/-- Everything a step can do. -/
theorem step_next (h : step s = .next t) :
    (∃ d rest, s.schedule = .reset d :: rest ∧ t = (s.take rest s.draw).applyReset d) ∨
    (∃ l d rest, s.schedule = .line l d :: rest ∧ runLine l (s.take rest d) = .next t) ∨
    (∃ a m d rest l ls, s.schedule = .text a m d :: rest ∧ s.assemble a m = some (l :: ls) ∧
      runLine l (s.take (ls.map (fun k => .line k d) ++ rest) d) = .next t) ∨
    (s.schedule = [] ∧ runChoice (Config.choice s.draws) s = .next t) := by
  unfold step runNext at h
  split at h
  · exact .inr (.inr (.inr ⟨by assumption, h⟩))
  · rename_i d rest hs
    exact .inl ⟨d, rest, hs, by cases h; rfl⟩
  · rename_i l d rest hs
    exact .inr (.inl ⟨l, d, rest, hs, h⟩)
  · rename_i a m d rest hs
    obtain ⟨l, ls, ha, hl⟩ := runText_next h
    exact .inr (.inr (.inl ⟨a, m, d, rest, l, ls, hs, ha, hl⟩))

end Sys2Proof.Machine
end

