-- ==== Sys2Proof/Laws/PerInstr.lean ====
section
/-!
SUPPORT. A family of statements about the instruction as syntax, one lemma per constructor: a line of the MOP port is
exactly one whose word is 0x80 or more (30_encoding.md R80: URP words are 0x00 to 0x7F, MOP codes are 0x80 to 0xFF).
-/

namespace Sys2Proof.Laws.MopRange

/-- Whether a line arrives as a step code. -/
def isMop : Line → Bool
  | .urp _ _ => false
  | .mop _ _ => true
  | .pcp _ _ => false

/-- The encoding of `i` is a step code exactly when its word is 0x80 or more. -/
def Statement (i : Instr) : Prop := isMop (encode i) = (encode i).word.msb

theorem init (src : Byte) : Statement (.init src) := by
  show false = BitVec.msb (0x10 : Byte)
  decide

theorem now (src : Byte) : Statement (.now src) := by
  show false = BitVec.msb (0x20 : Byte)
  decide

theorem irqService (src : Byte) : Statement (.irqService src) := by
  show false = BitVec.msb (0x30 : Byte)
  decide

theorem getCounter : Statement (.getCounter) := by
  unfold Statement
  decide

theorem setCompare (slot : BitVec 4) (data : Word) : Statement (.setCompare slot data) := by
  show false = (nibbles 2 slot).msb
  revert slot
  decide

theorem clearCounter : Statement (.clearCounter) := by
  unfold Statement
  decide

theorem enableCounter : Statement (.enableCounter) := by
  unfold Statement
  decide

theorem enableInterrupt (k : Kind) : Statement (.enableInterrupt k) := by
  unfold Statement
  cases k <;> decide

theorem isEventTriggered (k : Kind) : Statement (.isEventTriggered k) := by
  unfold Statement
  cases k <;> decide

theorem resetEvent (k : Kind) : Statement (.resetEvent k) := by
  unfold Statement
  cases k <;> decide

theorem rdSampleP (r : Byte) : Statement (.rdSampleP r) := by
  show true = BitVec.msb (0x80 : Byte)
  decide

theorem rdSampleC (r : Byte) : Statement (.rdSampleC r) := by
  show true = BitVec.msb (0x81 : Byte)
  decide

theorem sqEnter : Statement (.sqEnter) := by
  unfold Statement
  decide

theorem sqChkOvf : Statement (.sqChkOvf) := by
  unfold Statement
  decide

theorem sqAckOvf : Statement (.sqAckOvf) := by
  unfold Statement
  decide

theorem sqIncOvf : Statement (.sqIncOvf) := by
  unfold Statement
  decide

theorem sqChkCmp : Statement (.sqChkCmp) := by
  unfold Statement
  decide

theorem sqAckCmp : Statement (.sqAckCmp) := by
  unfold Statement
  decide

theorem sqIncCmp : Statement (.sqIncCmp) := by
  unfold Statement
  decide

theorem sqExit : Statement (.sqExit) := by
  unfold Statement
  decide

theorem inZero : Statement (.inZero) := by
  unfold Statement
  decide

theorem inSetcmp : Statement (.inSetcmp) := by
  unfold Statement
  decide

theorem inClear : Statement (.inClear) := by
  unfold Statement
  decide

theorem inStart : Statement (.inStart) := by
  unfold Statement
  decide

theorem inPoll : Statement (.inPoll) := by
  unfold Statement
  decide

theorem inEnOvf : Statement (.inEnOvf) := by
  unfold Statement
  decide

theorem inEnCmp : Statement (.inEnCmp) := by
  unfold Statement
  decide

theorem hwTick : Statement (.hwTick) := by
  unfold Statement
  decide

theorem hwClearApply : Statement (.hwClearApply) := by
  unfold Statement
  decide

end Sys2Proof.Laws.MopRange
end

