-- ==== Sys2Proof/Tests/Slice0.lean ====
section
/-!
SUPPORT. Tests. The expected results are the spec's (spec/95_test_vectors.md; spec/30_encoding.md for the words), not the
model's. After them, for every statement with hypotheses, a witness: a state and operands that meet them together.
-/

namespace Sys2Proof.Tests

open Sys2Proof Sys2Proof.Machine Sys2Proof.Safety

/-! ## Helpers: the spec's start states with W = 4 (95_test_vectors.md section 3) -/

/-- A draw: whether a SET_COMPARE is accepted, and the response bits that no rule fixes. -/
def drawOf (accepts : Bool) (respFill : Word) : Draw := ⟨accepts, respFill, 0, 0⟩

/-- W = 4, CMP_SLOT = 0, N_SLOTS = 1, EVENTS_LATCH_WHEN_DISABLED = false. -/
def p4 : Params := ⟨4, 32768, 0, 1, false⟩

/-- The RESET state of program P1 with `N_READERS = 2`: a residual count of 9, CC = 3. -/
def fresh : State where
  params := p4
  period := 0
  periodValid := false
  lifecycle := .uninit
  faultCause := .none
  faultOp := 0
  faultSrc := 0
  initState := .idle
  initOwner := none
  seqState := .idle
  contexts := [Context.atReset, Context.atReset]
  hw := ⟨9, false, false, 3, ⟨false, false⟩, ⟨false, false⟩⟩
  pcpResp := none
  tGhost := none
  incsGhost := 0
  schedule := []
  draws := 0
  draw := (drawOf true 0xFFFFFFF0)
  bench := false

/-- S_run(P, C, t). -/
def running (P : Nat) (C : Word) (t : Nat) : State :=
  { fresh with
    period := BitVec.ofNat 32 P
    periodValid := true
    lifecycle := .running
    initOwner := some 0
    incsGhost := P
    tGhost := some t
    hw := ⟨C, true, false, 8, ⟨false, false⟩, ⟨true, true⟩⟩ }

/-- A running state with flags `e` and SEQ_STATE `q`. -/
def serving (P : Nat) (q : SeqState) (e : KindBits) : State :=
  let s := running P 0 16
  { s with seqState := q, hw := { s.hw with event := e } }

/-- An initializing state, SW(0) its owner, at INIT_STATE `q`. -/
def initializing (q : InitState) : State :=
  { fresh with
    lifecycle := .initializing
    periodValid := true
    initOwner := some 0
    initState := q
    contexts := [{ Context.atReset with portState := .initWait }, Context.atReset] }

/-- The peripheral of a state alone on a bench. -/
def onBench (s : State) : State := { s with bench := true }

/-- SW(r), r = 0 or 1, between its two samples, with P_LATCH = p. -/
def reading (s : State) (r : Byte) (p : Word) : State :=
  s.modifyContext r fun c => { c with portState := .haveP, pLatch := some p }

/-- A field of the next state; none when there is none. -/
def get {α : Type} (o : Host.Outcome State Fault Refusal) (f : State → α) : Option α :=
  match o with
  | .next t => some (f t)
  | _ => none

/-- The refusal, if any. -/
def why : Host.Outcome State Fault Refusal → Option Refusal
  | .refused r => some r
  | _ => none

/-- The fault record: LIFECYCLE, FAULT_CAUSE, FAULT_OP, FAULT_SRC as their codes. -/
def record (t : State) : BitVec 2 × BitVec 4 × Byte × Byte :=
  (t.lifecycle.code, t.faultCause.code, t.faultOp, t.faultSrc)

/-! ## Well-formedness (R90): ill-formed terms are refused -/

theorem test_wf_unused_issuer : (Instr.now 2).wellFormed 2 = false ∧ (Instr.init 0xFE).wellFormed 2 = false ∧
    (Instr.irqService 2).wellFormed 2 = false := by decide

theorem test_wf_reader_is_software : (Instr.rdSampleC 0xFF).wellFormed 255 = false ∧
    (Instr.rdSampleC 2).wellFormed 2 = false ∧ (Instr.rdSampleP 2).wellFormed 2 = false := by decide

theorem test_wf_accepts : (Instr.now 1).wellFormed 2 = true ∧ (Instr.irqService 0xFF).wellFormed 2 = true ∧
    (Instr.init 0xFF).wellFormed 2 = true ∧ (Instr.rdSampleC 0xFE).wellFormed 255 = true := by decide

/-! ## Words written out from the spec's tables (30_encoding.md R81 to R92; 95_test_vectors.md 2.1)

URP: Z OP ARG = 0 001 0000 and so on. PCP: OP ARG. MOP: UNIT STEP. -/

theorem test_decode_urp : decode (.urp 3 0b00010000) = .instr (.init 3) ∧
    decode (.urp 3 0b00100000) = .instr (.now 3) ∧ decode (.urp 0xFF 0b00110000) = .instr (.irqService 0xFF) := by
  decide

theorem test_decode_urp_reserved :
    [0x00, 0x11, 0x2F, 0x40, 0x70, 0x90, 0xFF].all
      (fun w : Byte => decide (decode (.urp 0 w) = .rejected (.reservedRequest w))) = true := by decide

theorem test_decode_pcp : decode (.pcp 0b00010000 0) = .instr .getCounter ∧
    decode (.pcp 0b00100000 0x00800000) = .instr (.setCompare 0 0x00800000) ∧
    decode (.pcp 0b00101111 2) = .instr (.setCompare 15 2) ∧
    decode (.pcp 0b00110000 0) = .instr .clearCounter ∧ decode (.pcp 0b01000000 0) = .instr .enableCounter := by
  decide

theorem test_decode_pcp_kinds : decode (.pcp 0b01010000 0) = .instr (.enableInterrupt .ovf) ∧
    decode (.pcp 0b01010001 0) = .instr (.enableInterrupt .cmp) ∧
    decode (.pcp 0b01100000 0) = .instr (.isEventTriggered .ovf) ∧
    decode (.pcp 0b01100001 0) = .instr (.isEventTriggered .cmp) ∧
    decode (.pcp 0b01110000 0) = .instr (.resetEvent .ovf) ∧
    decode (.pcp 0b01110001 0) = .instr (.resetEvent .cmp) := by decide

theorem test_decode_pcp_reserved :
    [0x00, 0x0F, 0x11, 0x31, 0x4F, 0x52, 0x62, 0x7F, 0x80, 0xF0].all
      (fun w : Byte => decide (decode (.pcp w 0) = .rejected (.reservedCommand w))) = true := by decide

theorem test_decode_stray : decode (.pcp 0x10 1) = .rejected (.strayOperand 0x10) ∧
    decode (.mop 1 0x91) = .rejected (.strayOperand 0x91) := by decide

theorem test_decode_mop_reader : decode (.mop 1 0b10000000) = .instr (.rdSampleP 1) ∧
    decode (.mop 1 0b10000001) = .instr (.rdSampleC 1) := by decide

theorem test_decode_mop_sequencer : decode (.mop 0 0b10010000) = .instr .sqEnter ∧
    decode (.mop 0 0b10010001) = .instr .sqChkOvf ∧ decode (.mop 0 0b10010010) = .instr .sqAckOvf ∧
    decode (.mop 0 0b10010011) = .instr .sqIncOvf ∧ decode (.mop 0 0b10010100) = .instr .sqChkCmp ∧
    decode (.mop 0 0b10010101) = .instr .sqAckCmp ∧ decode (.mop 0 0b10010110) = .instr .sqIncCmp ∧
    decode (.mop 0 0b10010111) = .instr .sqExit := by decide

theorem test_decode_mop_init : decode (.mop 0 0b10100001) = .instr .inZero ∧
    decode (.mop 0 0b10100010) = .instr .inSetcmp ∧ decode (.mop 0 0b10100011) = .instr .inClear ∧
    decode (.mop 0 0b10100100) = .instr .inStart ∧ decode (.mop 0 0b10100101) = .instr .inPoll ∧
    decode (.mop 0 0b10100110) = .instr .inEnOvf ∧ decode (.mop 0 0b10100111) = .instr .inEnCmp := by decide

theorem test_decode_mop_counter : decode (.mop 0 0b10110000) = .instr .hwTick ∧
    decode (.mop 0 0b10110001) = .instr .hwClearApply := by decide

theorem test_decode_mop_reserved :
    [0x82, 0x8F, 0x98, 0xA0, 0xA8, 0xB2, 0xC0, 0xFF, 0x00, 0x10].all
      (fun w : Byte => decide (decode (.mop 0 w) = .rejected (.reservedStep w))) = true := by decide

/-- The table's numbers (notes/assumptions/8.md): without a port tag a shared word is the request. -/
theorem test_table_words : decodeTableWord 8 0x20 = some (.now 0) ∧ decodeTableWord 8 0x61 = some (.isEventTriggered .cmp) ∧
    decodeTableWord 8 0x97 = some .sqExit ∧ decodeTableWord 8 0x98 = none ∧
    decodeTableWord 50 (0x10 + 2 * 2 ^ 48) = some .getCounter ∧
    decodeTableWord 50 (0x23 + 0x80000000 * 2 ^ 16 + 2 * 2 ^ 48) = some (.setCompare 3 0x80000000) := by decide

/-! ## The composition (95_test_vectors.md 1.1, 2.4) -/

theorem test_resolve_source_cases :
    [resolve 24 0 0x000000, resolve 24 0 0x7FFFFF, resolve 24 0 0x800000, resolve 24 1 0x800000,
      resolve 24 1 0x7FFFFF, resolve 24 1 0xFFFFFF, resolve 24 2 0xFFFFFF, resolve 24 1 0, resolve 24 2 0] =
    [0x000000, 0x7FFFFF, 0x800000, 0x800000, 0x17FFFFF, 0xFFFFFF, 0x1FFFFFF, 0x1000000, 0x1000000] := by decide

theorem test_resolve_wide :
    [resolve 24 0xFFFFFFFF 0x7FFFFF, resolve 24 0x12345 0xABCDEF, resolve 24 0x12344 0xABCDEF,
      resolve 32 0xFFFFFFFF 0x7FFFFFFF, resolve 32 2 0x80000000, resolve 2 0xFFFFFFFF 1] =
    [0x800000007FFFFF, 0x91A2ABCDEF, 0x91A2ABCDEF, 0x800000007FFFFFFF, 0x180000000, 0x200000001] := by decide

theorem test_resolve_two_bits :
    [0, 1, 2, 3].map (fun p : Word => [0, 1, 2, 3].map fun c : Word => resolve 2 p c) =
    [[0, 1, 2, 3], [4, 5, 2, 3], [4, 5, 6, 7], [8, 9, 6, 7]] := by decide

/-! ## Requests (95_test_vectors.md 2.6, 2.8) -/

theorem test_init_accepts : get (exec (.init 0) fresh) (fun t => (t.lifecycle, t.initOwner, t.initState,
    (t.context? 0).map Context.portState)) =
    some (.initializing, some 0, .zero, some .initWait) := by decide

theorem test_init_twice : get (exec (.init 0) (running 2 3 19)) record = some (3, 3, 0x10, 0x00) ∧
    get (exec (.init 0xFF) fresh) record = some (3, 5, 0x10, 0xFF) := by decide

theorem test_now_latches : get (exec (.now 0) (running 1 15 15)) (fun t => (t.context? 0).map fun c => (c.portState, c.pLatch)) =
    some (some (.haveP, some 1)) := by decide

theorem test_now_faults : get (exec (.now 0) fresh) record = some (3, 1, 0x20, 0x00) ∧
    get (exec (.now 1) (initializing .setcmp)) record = some (3, 1, 0x20, 0x01) ∧
    get (exec (.now 0xFF) fresh) record = some (3, 5, 0x20, 0xFF) := by decide

theorem test_irq_enters : get (exec (.irqService 0xFF) (running 1 15 15)) State.seqState = some .chkOvf := by decide

theorem test_irq_faults : get (exec (.irqService 1) (running 0 0 0)) record = some (3, 5, 0x30, 0x01) ∧
    get (exec (.irqService 0) fresh) record = some (3, 5, 0x30, 0x00) := by decide

theorem test_reserved_word : get (runLine (.urp 1 0x00) (running 0 0 0)) record = some (3, 4, 0x00, 0x01) ∧
    get (runLine (.urp 0xFF 0x31) (running 0 0 0)) record = some (3, 4, 0x31, 0xFF) := by decide

/-! ## The reader -/

theorem test_sample_p : get (exec (.rdSampleP 1) (running 2 0 16)) (fun t => (t.context? 1).map Context.pLatch) =
    some (some (some 2)) := by decide

/-- P2, line 4: a stale odd p, exact. -/
theorem test_sample_c : get (exec (.rdSampleC 0) (reading (running 2 0 16) 0 1))
    (fun t => (t.context? 0).map fun c => (c.portState, c.cLatch, c.result)) =
    some (some (.idle, some 0, some 0x10)) := by decide

/-- W = 24: a response whose bits [31:24] are not 0 (95_test_vectors.md 2.4: p = 5, c = 0x000123 gives 0x3000123). -/
theorem test_sample_c_ignores_upper_bits :
    get (exec (.rdSampleC 1) { reading (running 5 0x123 0) 1 5 with
        params := { p4 with W := 24 }, draw := (drawOf true 0x01000000) })
      (fun t => (t.context? 1).map fun c => (c.cLatch, c.result)) =
    some (some (some 0x123, some 0x3000123)) := by decide

/-! ## The interrupt sequencer (95_test_vectors.md 2.5) -/

theorem test_sq_enter : get (exec .sqEnter (running 0 8 8)) State.seqState = some .chkOvf ∧
    why (exec .sqEnter (serving 0 .chkCmp ⟨false, false⟩)) = some .notEnabled := by decide

theorem test_sq_chk_ovf : get (exec .sqChkOvf (serving 1 .chkOvf ⟨true, false⟩)) State.seqState = some .ackOvf ∧
    get (exec .sqChkOvf (serving 1 .chkOvf ⟨false, true⟩)) State.seqState = some .chkCmp := by decide

theorem test_sq_ack_ovf : get (exec .sqAckOvf (serving 1 .ackOvf ⟨true, true⟩)) (fun t => (t.seqState, t.hw.event, t.period)) =
    some (.incOvf, ⟨false, true⟩, 1) := by decide

theorem test_sq_inc_ovf : get (exec .sqIncOvf (serving 0x7FFFFFFF .incOvf ⟨false, false⟩)) (fun t => (t.seqState, t.period, t.parity)) =
    some (.chkCmp, 0x80000000, false) := by decide

theorem test_sq_chk_cmp : get (exec .sqChkCmp (serving 1 .chkCmp ⟨false, true⟩)) State.seqState = some .ackCmp ∧
    get (exec .sqChkCmp (serving 1 .chkCmp ⟨true, false⟩)) State.seqState = some .exit := by decide

theorem test_sq_ack_cmp : get (exec .sqAckCmp (serving 0 .ackCmp ⟨true, true⟩)) (fun t => (t.seqState, t.hw.event, t.period)) =
    some (.incCmp, ⟨true, false⟩, 0) := by decide

theorem test_sq_inc_cmp : get (exec .sqIncCmp (serving 0xFFFFFFFF .incCmp ⟨false, false⟩)) (fun t => (t.seqState, t.period)) =
    some (.exit, 0) ∧
    get (exec .sqIncCmp (serving 0 .incCmp ⟨false, false⟩)) State.parity = some true := by decide

theorem test_sq_exit : get (exec .sqExit (serving 2 .exit ⟨true, false⟩)) (fun t => (t.seqState, t.line)) =
    some (.idle, true) := by decide

/-! ## The init sequencer (95_test_vectors.md 2.6, P1, P6) -/

theorem test_in_zero : get (exec .inZero { initializing .zero with period := 7, periodValid := false })
    (fun t => (t.period, t.periodValid, t.initState)) = some (0, true, .setcmp) := by decide

theorem test_in_setcmp : get (exec .inSetcmp (initializing .setcmp)) (fun t => (t.hw.cc, t.initState)) =
    some (8, .clear) := by decide

theorem test_in_setcmp_fails :
    get (exec .inSetcmp { initializing .setcmp with draw := (drawOf false 0) }) (fun t => (record t, t.initState, t.hw.cc)) =
      some ((3, 2, 0xA2, 0x00), .setcmp, 3) ∧
    get (exec .inSetcmp { initializing .setcmp with params := { p4 with cmpSlot := 2, nSlots := 2 } }) record =
      some (3, 2, 0xA2, 0x00) := by decide

theorem test_in_clear : get (exec .inClear (initializing .clear)) (fun t => (t.hw.clearPending, t.hw.counter, t.initState)) =
    some (true, 9, .start) := by decide

theorem test_in_start : get (exec .inStart (initializing .start)) (fun t => (t.hw.running, t.initState)) =
    some (true, .poll) := by decide

theorem test_in_poll : get (exec .inPoll (initializing .poll)) State.initState = some .poll ∧
    get (exec .inPoll ((initializing .poll).setHw ⟨0, true, false, 8, ⟨false, false⟩, ⟨false, false⟩⟩)) State.initState =
      some .enOvf := by decide

theorem test_in_en_ovf : get (exec .inEnOvf (initializing .enOvf)) (fun t => (t.hw.inten, t.initState)) =
    some (⟨true, false⟩, .enCmp) := by decide

theorem test_in_en_cmp : get (exec .inEnCmp (initializing .enCmp))
    (fun t => (t.hw.inten.cmp, t.initState, t.lifecycle)) = some (true, .idle, .running) ∧
    get (exec .inEnCmp (initializing .enCmp)) (fun t => (t.context? 0).map fun c => (c.portState, c.response)) =
      some (some (.idle, some .done)) := by decide

/-! ## Model errors (R46, 93 U15, R236): states that no run reaches -/

/-- SW(0) waiting for its second sample without a first. -/
def valueless (s : State) : State := s.modifyContext 0 fun c => { c with portState := .haveP }

/-- An init without an owner. -/
def ownerless (q : InitState) : State := { initializing q with initOwner := none }

theorem test_sample_c_without_value :
    get (exec (.rdSampleC 0) { valueless (running 1 15 15) with draw := ⟨true, 0, 3, 0⟩ })
      (fun t => (record t, (t.context? 0).map Context.result)) = some ((3, 4, 0x81, 0x00), some none) := by decide

theorem test_init_without_owner :
    get (exec .inEnCmp { ownerless .enCmp with draw := ⟨true, 0, 4, 7⟩ }) (fun t => (record t, t.hw.inten.cmp)) =
      some ((3, 5, 0xA7, 0x07), false) ∧
    get (exec .inSetcmp { ownerless .setcmp with draw := ⟨false, 0, 4, 7⟩ }) record = some (3, 2, 0xA2, 0x07) := by decide

/-! ## The counter (95_test_vectors.md 2.3) -/

/-- One row of the table: the counter, INTEN, EVENTS_LATCH_WHEN_DISABLED and the flags before; the counter and the flags
after. -/
def tick (c : Word) (inten : KindBits) (latch : Bool) (e : KindBits) : Option (Word × KindBits) :=
  get (exec .hwTick { running 0 0 0 with params := { p4 with latchWhenDisabled := latch }, hw := ⟨c, true, false, 8, e, inten⟩ })
    fun t => (t.hw.counter, t.hw.event)

theorem test_tick_enabled :
    [tick 3 ⟨true, true⟩ false ⟨false, false⟩, tick 7 ⟨true, true⟩ true ⟨false, false⟩,
      tick 8 ⟨true, true⟩ false ⟨false, true⟩, tick 15 ⟨true, true⟩ false ⟨false, false⟩,
      tick 15 ⟨true, true⟩ false ⟨true, false⟩] =
    [some (4, ⟨false, false⟩), some (8, ⟨false, true⟩), some (9, ⟨false, true⟩), some (0, ⟨true, false⟩),
      some (0, ⟨true, false⟩)] := by decide

theorem test_tick_disabled :
    [tick 7 ⟨false, false⟩ false ⟨false, false⟩, tick 7 ⟨false, false⟩ true ⟨false, false⟩,
      tick 15 ⟨true, false⟩ false ⟨false, false⟩, tick 7 ⟨true, false⟩ false ⟨false, false⟩] =
    [some (8, ⟨false, false⟩), some (8, ⟨false, true⟩), some (0, ⟨true, false⟩), some (8, ⟨false, false⟩)] := by decide

theorem test_clear_apply :
    get (exec .hwClearApply ((running 0 0 0).setHw ⟨12, true, true, 8, ⟨false, false⟩, ⟨true, true⟩⟩))
      (fun t => (t.hw, t.tGhost)) = some (⟨0, true, false, 8, ⟨false, false⟩, ⟨true, true⟩⟩, some 0) ∧
    why (exec .hwClearApply (running 0 0 0)) = some .notEnabled := by decide

/-! ## The peripheral commands (95_test_vectors.md 2.7) -/

theorem test_get_counter : get (exec .getCounter (onBench <| (running 0 0 0).setHw ⟨12, true, true, 8, ⟨false, false⟩, ⟨true, true⟩⟩))
    (fun t => t.pcpResp.map (trunc 4)) = some (some 12) := by decide

theorem test_set_compare : get (exec (.setCompare 0 8) (onBench fresh)) (fun t => (t.hw.cc, t.hw.event, t.pcpResp.map respRefused)) =
    some (8, ⟨false, false⟩, some false) ∧
    get (exec (.setCompare 0 8) (onBench { fresh with draw := (drawOf false 0) })) (fun t => (t.hw.cc, t.pcpResp.map respRefused)) =
      some (3, some true) := by decide

theorem test_clear_counter : get (exec .clearCounter (onBench fresh)) (fun t => (t.hw.clearPending, t.hw.counter)) = some (true, 9) := by
  decide

theorem test_enable_counter : get (exec .enableCounter (onBench fresh)) (fun t => t.hw.running) = some true := by decide

theorem test_enable_interrupt : get (exec (.enableInterrupt .ovf) (onBench <| fresh.setHw ⟨0, true, false, 8, ⟨true, false⟩, ⟨false, false⟩⟩))
    (fun t => (t.hw.inten, t.line)) = some (⟨true, false⟩, true) := by decide

theorem test_is_event_triggered :
    get (exec (.isEventTriggered .cmp) (onBench <| fresh.setHw ⟨0, true, false, 8, ⟨false, true⟩, ⟨false, false⟩⟩))
      (fun t => (t.pcpResp.map respFlag, t.hw.event)) = some (some true, ⟨false, true⟩) := by decide

theorem test_reset_event : get (exec (.resetEvent .ovf) (onBench <| serving 0 .idle ⟨true, true⟩)) (fun t => t.hw.event) =
    some ⟨false, true⟩ := by decide

/-- R218: off the bench nothing but the block's steps issues a command. -/
theorem test_no_lone_command : why (runLine (.pcp 0x71 0) (serving 0 .idle ⟨true, true⟩)) = some .notEnabled ∧
    why (runLine (.pcp 0x20 5) fresh) = some .notEnabled := by decide

/-! ## Schedules (R99, R100) -/

theorem test_schedule_lines : fresh.assemble (.sw 1) .now = some [.urp 1 0x20, .mop 1 0x81] ∧
    (serving 0 .idle ⟨false, true⟩).assemble .irq .service =
      some [.mop 0 0x90, .mop 0 0x91, .mop 0 0x94, .mop 0 0x95, .mop 0 0x96, .mop 0 0x97] ∧
    fresh.assemble .hw (.tickN 2) = some [.mop 0 0xB0, .mop 0 0xB0] := by decide

/-- There is no SW(255) (R11), `hw tick N` asks `N >= 1` (R100), and the hw agent has no `enter` (R99). -/
theorem test_schedule_rejects :
    [(Agent.sw 255, Mnemonic.init), (.sw 256, .now), (.sw 510, .nowC), (.hw, .tickN 0), (.hw, .enter)].all (fun x =>
      decide (why (step { running 0 0 0 with schedule := [.text x.1 x.2 (drawOf true 0)] }) = some .noSuchLine)) = true := by
  decide

/-- R99, R170, R271: before in.zero `irq enter` is not enabled, whatever text stands for it; from in.zero on it enters. -/
theorem test_irq_enter_before_zero :
    why (step { fresh with schedule := [.text .irq .enter (drawOf true 0)] }) = some .notEnabled ∧
    why (step { fresh with schedule := [.text .irq .service (drawOf true 0)] }) = some .notEnabled ∧
    get (step { initializing .setcmp with schedule := [.text .irq .enter (drawOf true 0)] }) State.seqState =
      some .chkOvf := by decide

/-- P5 line 2: the first step of `init run`, with the seven others still to come. -/
theorem test_step_runs_text :
    get (step { initializing .zero with schedule := [.text .init .run (drawOf true 0), .text (.sw 1) (.raw 0) (drawOf true 0)] })
      (fun t => (t.initState, t.schedule.length, t.schedule.head?)) =
    some (.setcmp, 8, some (.line (.mop 0 0xA2) (drawOf true 0))) := by decide

/-- Program P3 through the schedule: NOW before INIT faults. -/
theorem test_step_runs_schedule :
    get (step { fresh with schedule := [.line (.urp 0 0x20) (drawOf true 0)] }) (fun t => (record t, t.schedule)) =
      some ((3, 1, 0x20, 0x00), []) := by decide

/-- A word placed where the next step takes it, after reset, for whatever parameters the machine has. -/
theorem test_step_after_reset : get (step (State.reset.withFetchWord 8 0x10)) State.lifecycle = some .initializing ∧
    get (step (State.reset.withFetchWord 8 0x96)) State.period = some 1 ∧
    get (step (State.reset.withFetchWord 8 0x40)) (fun t => t.hw.running) = some true := by
  refine ⟨?_, ?_, ?_⟩ <;> rfl

/-! ## Witnesses: every statement's hypotheses can be met together -/

/-- A faulted state. -/
def faulted : State := (running 0 0 0).enterFault .illegalCommand 0 1

theorem witness_StepRunsTheDecodedInstruction :
    (∃ (s : State) (l : Line) (d : Draw) (rest : List Input) (i : Instr),
      s.schedule = .line l d :: rest ∧ decode l = .instr i) ∧
    ∃ (s : State) (a : Agent) (m : Mnemonic) (d : Draw) (rest : List Input) (ls : List Line),
      s.schedule = .text a m d :: rest ∧ s.assemble a m = some ls :=
  ⟨⟨{ fresh with schedule := [.line (.urp 0 0x20) (drawOf true 0)] }, _, _, _, .now 0, rfl, by decide⟩,
    ⟨{ fresh with schedule := [.text (.sw 0) .now (drawOf true 0)] }, _, _, _, _, _, rfl, rfl⟩⟩

/-- Both issuers, and the words beside the three defined ones. -/
theorem witness_ReservedRequestFaultsIllegalCommand :
    [0x00, 0x0F, 0x11, 0x1F, 0x21, 0x2F, 0x31, 0xFF].all (fun w : Byte =>
      decide (get (step { running 0 0 0 with schedule := [.line (.urp 1 w) (drawOf true 0)] }) record = some (3, 4, w, 1)) &&
      decide (get (step { fresh with schedule := [.line (.urp 0xFF w) (drawOf true 0)] }) record = some (3, 4, w, 0xFF)) &&
      decide (why (step { serving 0 .exit ⟨false, false⟩ with schedule := [.line (.urp 0xFF w) (drawOf true 0)] }) =
        some .notEnabled)) = true := by decide

theorem witness_ReservedStepsAndCommandsAreRefused :
    [0x7F, 0x82, 0x8F, 0x98, 0xA0, 0xA8, 0xB2, 0xFF].all (fun w : Byte =>
      decide (why (step { fresh with schedule := [.line (.mop 0 w) (drawOf true 0)] }) = some .reservedStep)) = true ∧
    [0x00, 0x0F, 0x11, 0x1F, 0x31, 0x41, 0x52, 0x62, 0x72, 0x80, 0xFF].all (fun w : Byte =>
      decide (why (step { fresh with schedule := [.line (.pcp w 0) (drawOf true 0)] }) = some .reservedCommand)) = true ∧
    fresh.assemble (.sw 255) .init = none ∧ (fresh.assemble (.sw 254) .init).isSome = true := by
  decide

theorem witness_FreeSchedulerTakesOnlyEnabledSteps : fresh.schedule = [] ∧
    decode (lineOfChoice ⟨false, 1, 0x10, (drawOf true 0)⟩) = .instr (.init 1) ∧
    get (runChoice ⟨false, 1, 0x10, (drawOf true 0)⟩ fresh) State.lifecycle = some .initializing ∧
    why (exec .sqExit fresh) = some .notEnabled ∧ fresh.periodValid = false ∧
    get (runChoice ⟨false, 0xFF, 0x30, (drawOf true 0)⟩ fresh) State.lifecycle = some .uninit := by decide

theorem witness_UnusedContextsAreRefused : fresh.lifecycle ≠ .faulted ∧ (Instr.now 2).wellFormed fresh.nReaders = false ∧
    (Instr.rdSampleC 0xFF).wellFormed fresh.nReaders = false := by decide

theorem witness_DecodedLineIsTheEncoding : decode (.pcp 0x2F 5) = .instr (.setCompare 15 5) := by decide

/-- Every clause: RTC_IRQ, a software context before RUNNING and in it, and the three ways not to be enabled. -/
theorem witness_NowSamplesPeriodFirst :
    (fresh.lifecycle ≠ .faulted ∧ fresh.seqState = .idle ∧ fresh.lifecycle ≠ .running ∧
      (fresh.context? 1).map Context.portState = some .idle) ∧
    ((running 0 0 0).lifecycle = .running ∧ ((running 0 0 0).context? 1).map Context.portState = some .idle) ∧
    faulted.lifecycle = .faulted ∧ (serving 0 .exit ⟨false, false⟩).seqState ≠ .idle ∧
    ((reading (running 0 0 0) 0 0).context? 0).map Context.portState = some .haveP := by decide

theorem witness_SampleCounterDeliversTheComposition :
    ((reading (running 0 0 0) 1 3).context? 1).map (fun c => (c.portState, c.pLatch)) = some (.haveP, some 3) ∧
    (running 0 0 0).lifecycle ≠ .faulted ∧ ((running 0 0 0).context? 1).map Context.portState = some .idle := by decide

theorem witness_CompositionEquivalentForm : (2 ≤ 2 ∧ 2 ≤ 32 ∧ (3 : Word).toNat < 2 ^ 2) ∧
    (2 ≤ 32 ∧ 32 ≤ 32 ∧ (0xFFFFFFFF : Word).toNat < 2 ^ 32) := by decide

theorem witness_CompositionNeverOverflows : 2 ≤ 2 ∧ 2 ≤ 32 ∧ 32 ≤ 32 ∧ (1 : Word).toNat < 2 ^ 2 := by decide

/-- Sampling between the two steps of a NOW, with the lags 0, 1, 2 and -1 of 95_test_vectors.md 2.4. -/
theorem sampling_example (p : Word) (P : Nat) (C : Word) (T : Nat) (h : C.toNat = T % 16) :
    Sampling (reading (running P C T) 0 p) 0
      { Context.atReset with portState := .haveP, pLatch := some p } p T :=
  ⟨rfl, rfl, rfl, rfl, by simp [reading, State.modifyContext, running], rfl, h⟩

theorem witness_ResultIsExactIffLagIsZeroOrOne :
    Sampling (reading (running 2 5 21) 0 2) 0 { Context.atReset with portState := .haveP, pLatch := some 2 } 2 21 ∧
    lag 4 2 21 = 0 ∧ lag 4 1 16 = 1 ∧ lag 4 0 16 = 2 ∧ lag 4 2 8 = -1 :=
  ⟨sampling_example 2 2 5 21 rfl, by decide⟩

theorem witness_TimestampsDoNotDecreaseWithinLag :
    Sampling (reading (running 0 8 8) 0 0) 0 { Context.atReset with portState := .haveP, pLatch := some 0 } 0 8 ∧
    Sampling (reading (running 1 8 8) 0 1) 0 { Context.atReset with portState := .haveP, pLatch := some 1 } 1 8 ∧
    lag 4 0 8 = 1 ∧ lag 4 1 8 = 0 :=
  ⟨sampling_example 0 0 8 8 rfl, sampling_example 1 1 8 8 rfl, by decide⟩

theorem witness_ReadersDoNotInterfere : ∃ t u, exec (.now 0) (running 1 15 15) = .next t ∧
    exec (.rdSampleC 0) (reading (running 1 15 15) 0 1) = .next u ∧
    ({ running 1 15 15 with contexts := [Context.atReset] } : State).context? 0 = (running 1 15 15).context? 0 :=
  ⟨_, _, rfl, rfl, rfl⟩

theorem witness_InterruptEntry :
    ((running 0 0 0).lifecycle ≠ .faulted ∧ (running 0 0 0).seqState = .idle ∧ (running 0 0 0).periodValid = true) ∧
    (serving 0 .chkOvf ⟨false, false⟩).seqState ≠ .idle ∧ fresh.periodValid = false ∧
    (fresh.context? 1).map Context.portState = some .idle ∧
    ({ running 0 0 0 with schedule := [.text .irq .enter (drawOf true 0)] } : State).schedule =
      [.text .irq .enter (drawOf true 0)] ∧
    ({ fresh with schedule := [.text .irq .service (drawOf true 0)] } : State).schedule =
      [.text .irq .service (drawOf true 0)] := by decide

theorem witness_EarlyInterruptFaultsNotInitialized :
    fresh.lifecycle ≠ .faulted ∧ fresh.seqState = .idle ∧ fresh.periodValid = false := by decide

/-- ChecksReadTheFlags, AcknowledgmentsClearTheirFlag, IncrementsCountOneEvent, ServiceExit: each SEQ_STATE in a live state, with the flag set and clear; and the refusals. -/
theorem witness_sequencer_steps :
    [SeqState.chkOvf, .ackOvf, .incOvf, .chkCmp, .ackCmp, .incCmp, .exit].all (fun q =>
      decide ((serving 0 q ⟨true, true⟩).seqState = q) && decide ((serving 0 q ⟨true, true⟩).lifecycle = .running) &&
      decide (fresh.seqState ≠ q)) = true ∧
    (serving 0 .chkOvf ⟨false, true⟩).hw.event.ovf = false ∧ faulted.lifecycle = .faulted := by decide

theorem witness_ServiceCountsEachSetFlag :
    (serving 3 .idle ⟨true, true⟩).lifecycle ≠ .faulted ∧ (serving 3 .idle ⟨true, true⟩).seqState = .idle ∧
    (serving 3 .idle ⟨true, true⟩).periodValid = true ∧ serviceSteps true true ≠ serviceSteps false true := by decide

theorem witness_InitIsAcceptedOnce :
    fresh.lifecycle = .uninit ∧ (fresh.context? 0).map Context.portState = some .idle ∧ (0 : Byte) ≠ rtcIrq ∧
    (running 0 0 0).lifecycle ≠ .uninit ∧ (initializing .zero).lifecycle ≠ .uninit ∧
    ((initializing .zero).context? 1).map Context.portState = some .idle ∧
    ((initializing .zero).context? 0).map Context.portState = some .initWait ∧ faulted.lifecycle = .faulted := by decide

/-- InitStepsFollowTheirOrder, SetCompareArmsHalfOrFails, PollWaitsForZero, EnableCompareCompletesInit: each INIT_STATE in a
live state; and the refusals. -/
theorem witness_init_steps :
    [InitState.zero, .setcmp, .clear, .start, .poll, .enOvf, .enCmp].all (fun q =>
      decide ((initializing q).initState = q) && decide ((initializing q).lifecycle = .initializing) &&
      decide ((initializing q).initOwner = some 0) && decide (((initializing q).context? 0).isSome = true) &&
      decide (fresh.initState ≠ q)) = true := by decide

theorem witness_SetCompareArmsHalfOrFails :
    (initializing .setcmp).params.valid = true ∧ p4.cmpSlot.toNat < p4.nSlots ∧ (initializing .setcmp).draw.accepts = true ∧
    ¬((2 : BitVec 4).toNat < 2) := by decide

/-- The state after a step that is enabled. -/
def after (i : Instr) (s : State) : State :=
  match exec i s with
  | .next t => t
  | _ => s

/-- An init with the clear between in.clear and in.start, a spurious service around it, and a tick before the enables. -/
def launchLabels : Nat → Instr
  | 0 => .init 0
  | 1 => .inZero
  | 2 => .sqEnter
  | 3 => .inSetcmp
  | 4 => .inClear
  | 5 => .hwClearApply
  | 6 => .inStart
  | 7 => .inPoll
  | 8 => .sqChkOvf
  | 9 => .hwTick
  | 10 => .inEnOvf
  | _ => .inEnCmp

/-- Its states. -/
def launchStates : Nat → State
  | 0 => fresh
  | n + 1 => after (launchLabels n) (launchStates n)

theorem launch_at_reset : AtReset fresh ∧ CleanLaunch fresh :=
  ⟨⟨by decide, by simp [fresh], rfl, rfl, rfl, rfl, rfl, rfl, rfl⟩, rfl, rfl⟩

theorem below_eleven {P : Nat → Prop} (h : [0, 1, 2, 3, 4, 5, 6, 7, 8, 9, 10].Forall P) : ∀ n < 11, P n := by
  simp only [List.Forall] at h
  intro n hn
  obtain rfl | rfl | rfl | rfl | rfl | rfl | rfl | rfl | rfl | rfl | rfl : n = 0 ∨ n = 1 ∨ n = 2 ∨ n = 3 ∨ n = 4 ∨
    n = 5 ∨ n = 6 ∨ n = 7 ∨ n = 8 ∨ n = 9 ∨ n = 10 := by omega
  all_goals simp only [h]

theorem launch_run : IsRun launchStates launchLabels 12 := by
  intro n hn
  have h : ∀ n < 11, Takes (launchLabels n) (launchStates n) (launchStates (n + 1)) :=
    below_eleven (by refine ⟨?_, ?_, ?_, ?_, ?_, ?_, ?_, ?_, ?_, ?_, ?_⟩ <;> exact ⟨rfl, (drawOf true 0xFFFFFFF0), rfl⟩)
  by_cases h11 : n = 11
  · subst h11; exact ⟨rfl, (drawOf true 0xFFFFFFF0), rfl⟩
  · exact h n (by omega)

theorem launch_prompt : PromptClear launchStates launchLabels 5 11 where
  clears := rfl
  completes := by decide
  afterClear := ⟨4, by decide, rfl⟩
  beforeTicks := by
    intro i j _ hj _ hl
    by_contra hn
    have h : ∀ j < 6, launchLabels j ≠ .hwTick := by decide
    exact h j (by omega) hl
  beforeLastPoll := by
    intro j _ hl _
    by_contra hn
    have h : ∀ j < 6, launchLabels j ≠ .inPoll := by decide
    exact h j (by omega) hl

theorem witness_CleanInitEndsRunningAtZero :
    (AtReset (launchStates 0) ∧ CleanLaunch (launchStates 0) ∧ IsRun launchStates launchLabels 12 ∧
      launchLabels 11 = .inEnCmp ∧ PromptClear launchStates launchLabels 5 11 ∧
      FastInit (launchStates 0).params.W launchLabels 5 11 ∧ (launchStates 12).tGhost = some 1) ∧
    (AtReset fresh ∧ CleanLaunch fresh ∧ (0 : Byte) ≠ rtcIrq ∧
      fresh.context? 0 = some Context.atReset ∧ p4.cmpSlot.toNat < p4.nSlots ∧ fresh.draw.accepts = true ∧
      (fresh.hw.counter.toNat % 2 ^ fresh.params.W ≠ 0) ∧ 3 + 4 < halfTicks fresh.params.W) :=
  ⟨⟨launch_at_reset.1, launch_at_reset.2, launch_run, rfl, launch_prompt, by unfold FastInit; decide, rfl⟩,
    launch_at_reset.1, launch_at_reset.2, by decide, rfl, by decide, rfl, by decide, by decide⟩

theorem witness_SetCompareAnswersAcceptance :
    ((0 : BitVec 4).toNat < p4.nSlots ∧ (0 : BitVec 4) = p4.cmpSlot) ∧ ¬((1 : BitVec 4).toNat < p4.nSlots) ∧
    (1 : BitVec 4) ≠ p4.cmpSlot ∧ (onBench fresh).bench = true ∧ (onBench fresh).lifecycle ≠ .faulted := by decide

/-- GetCounterAnswersTheCounter, CommandsWriteOneBit, IsEventTriggeredAnswersTheFlag. -/
theorem witness_commands : (onBench fresh).bench = true ∧ (onBench fresh).lifecycle ≠ .faulted := by decide

theorem witness_CommandsAreIdempotent : ∃ t, isAgentStep (.setCompare 0 5) = false ∧
    exec (.setCompare 0 5) (onBench fresh) = .next t := ⟨_, rfl, rfl⟩

/-- A step that issues a command, one that faults without issuing it, a command off the bench, and a step of the machine
that changes the peripheral. -/
theorem witness_BlockChangesPeripheralOnlyByItsCommands :
    (∃ t, isAgentStep .inSetcmp = true ∧ exec .inSetcmp (initializing .setcmp) = .next t ∧ t.lifecycle ≠ .faulted) ∧
    (∃ t, exec .inSetcmp { initializing .setcmp with draw := (drawOf false 0) } = .next t ∧ t.lifecycle = .faulted) ∧
    (fresh.bench = false ∧ isAgentStep (.resetEvent .ovf) = false) ∧
    ∃ t, step { running 0 3 3 with schedule := [.text .hw .tick (drawOf true 0)] } = .next t ∧ t.hw ≠ (running 0 3 3).hw :=
  ⟨⟨_, rfl, rfl, by decide⟩, ⟨_, rfl, rfl⟩, ⟨rfl, rfl⟩, ⟨_, rfl, by decide⟩⟩

theorem witness_TickAdvancesAndDetects : (running 0 15 15).params.valid = true ∧
    (running 0 15 15).hw.counter.toNat < 2 ^ p4.W ∧ (running 0 15 15).hw.running = true ∧ fresh.hw.running = false := by
  decide

theorem witness_ClearAppliesLater :
    (fresh.setHw fresh.hw.clearCounter).hw.clearPending = true ∧ fresh.hw.clearPending = false := by decide

/-- The tick before CMP and the tick before OVF. -/
theorem witness_EventsMarkEveryHalfCycle :
    [(0, (7 : Word), 7), (1, 15, 15)].all (fun x : Nat × Word × Nat =>
      let s := running x.1 x.2.1 x.2.2
      decide (s.hw.running = true) && decide (s.tGhost = some x.2.2) && decide (s.hw.counter.toNat = x.2.2 % 2 ^ s.params.W) &&
      decide (s.hw.cc = half s.params.W) && mayLatch s.params s.hw .ovf && mayLatch s.params s.hw .cmp &&
      decide (s.hw.event = ⟨false, false⟩)) = true := by decide

theorem witness_NoAgentStepsWhenFaulted : faulted.lifecycle = .faulted := rfl

theorem witness_FaultsArePrecise : ∃ t, exec (.now 0) fresh = .next t ∧ t.lifecycle = .faulted := ⟨_, rfl, rfl⟩

theorem witness_OnlyResetLeavesFaulted : ∃ t, faulted.lifecycle = .faulted ∧
    step { faulted with schedule := [.reset ⟨1, 2, true, true, false⟩] } = .next t := ⟨_, rfl, rfl⟩

theorem witness_ResetLeavesTheResetValues :
    get (step { faulted with schedule := [.reset ⟨17, 2, true, true, false⟩] })
      (fun t => (t.lifecycle, t.hw.counter, t.hw.running, t.hw.inten)) =
    some (.uninit, 1, true, ⟨false, false⟩) := by decide

theorem witness_OnlyInitSucceedsAfterReset : AtReset fresh ∧ (∃ t, exec (.init 1) fresh = .next t) ∧
    ∃ t, exec (.irqService rtcIrq) fresh = .next t :=
  ⟨launch_at_reset.1, ⟨_, rfl⟩, ⟨_, rfl⟩⟩

/-- A running state that has the invariant, between the two samples of a NOW. -/
theorem inv_example : Safety.Inv (reading (running 1 15 15) 0 1) where
  params := by decide
  readers := by decide
  counterWidth := by decide
  ccWidth := by decide
  contextsOk := by
    intro c hc
    rcases List.mem_cons.mp hc with rfl | hc
    · exact ⟨fun _ => rfl, fun v hv => by cases hv⟩
    · rcases List.mem_cons.mp hc with rfl | hc
      · exact ⟨fun h => (by cases h), fun v hv => (by cases hv)⟩
      · cases hc
  ghostTick := by rintro t ⟨⟩; rfl
  ghostIncs := rfl
  cause := by decide
  uninit := by intro h; cases h
  initializing := by intro h; cases h
  running := by
    intro _
    refine ⟨rfl, rfl, fun c hc => ?_⟩
    rcases List.mem_cons.mp hc with rfl | hc
    · decide
    · rcases List.mem_cons.mp hc with rfl | hc
      · decide
      · cases hc
  owner := fun h => absurd rfl h
  sequencer := fun h => absurd rfl h
  zeroed := fun h => absurd rfl h

theorem witness_EveryStepKeepsTheInvariant : ∃ t, Safety.Inv { reading (running 1 15 15) 0 1 with
      schedule := [.line (.mop 0 0x81) (drawOf true 0)] } ∧
    step { reading (running 1 15 15) 0 1 with schedule := [.line (.mop 0 0x81) (drawOf true 0)] } = .next t :=
  ⟨_, { inv_example with }, rfl⟩

/-- An initializing state that has the invariant, before an in.setcmp that the peripheral refuses. -/
theorem inv_refusing : Safety.Inv { initializing .setcmp with draw := drawOf false 0 } where
  params := by decide
  readers := by decide
  counterWidth := by decide
  ccWidth := by decide
  contextsOk := by
    intro c hc
    rcases List.mem_cons.mp hc with rfl | hc
    · exact ⟨fun h => (by cases h), fun v hv => (by cases hv)⟩
    · rcases List.mem_cons.mp hc with rfl | hc
      · exact ⟨fun h => (by cases h), fun v hv => (by cases hv)⟩
      · cases hc
  ghostTick := by intro t h; cases h
  ghostIncs := rfl
  cause := by decide
  uninit := by intro h; cases h
  initializing := by
    intro _
    refine ⟨by decide, fun r c hc => ?_⟩
    match r with
    | 0 => cases hc; exact ⟨by decide, fun _ => ⟨0, rfl, rfl⟩⟩
    | 1 => cases hc; exact ⟨by decide, fun h => (by cases h)⟩
    | _ + 2 => cases hc
  running := by intro h; cases h
  owner := fun _ => ⟨0, _, rfl, rfl, rfl⟩
  sequencer := fun h => absurd rfl h
  zeroed := fun _ _ => rfl

theorem witness_FaultsAriseOnlyAtAcceptanceOrSetCompare :
    (Safety.Inv (reading (running 1 15 15) 0 1) ∧
      (∃ t, exec (.init 0xFF) (reading (running 1 15 15) 0 1) = .next t ∧ t.lifecycle = .faulted) ∧
      ∃ t, exec (.irqService 1) (reading (running 1 15 15) 0 1) = .next t ∧ t.lifecycle = .faulted) ∧
    Safety.Inv { initializing .setcmp with draw := drawOf false 0 } ∧
    ∃ t, exec .inSetcmp { initializing .setcmp with draw := drawOf false 0 } = .next t ∧ t.lifecycle = .faulted :=
  ⟨⟨inv_example, ⟨_, rfl, rfl⟩, ⟨_, rfl, rfl⟩⟩, inv_refusing, ⟨_, rfl, rfl⟩⟩

/-- The clause of the invariant, and the three model errors, in states that no run reaches. -/
theorem witness_NoStepReadsARegisterWithoutValue :
    (Safety.Inv { initializing .setcmp with draw := drawOf false 0 } ∧
      ∃ t, exec .inSetcmp { initializing .setcmp with draw := drawOf false 0 } = .next t ∧ t.lifecycle = .faulted) ∧
    (∃ c, (valueless (running 1 15 15)).context? 0 = some c ∧ c.portState = .haveP ∧ c.pLatch = none) ∧
    (ownerless .enCmp).lifecycle ≠ .faulted ∧ (ownerless .enCmp).initOwner = none ∧
    ¬((2 : BitVec 4).toNat < 2) ∧ (drawOf false 0).accepts = false :=
  ⟨⟨inv_refusing, ⟨_, rfl, rfl⟩⟩, ⟨_, rfl, rfl, rfl⟩, by decide, rfl, by decide, rfl⟩

theorem witness_AcceptedNowCompletes :
    Safety.Inv (reading (running 1 15 15) 0 1) ∧ (reading (running 1 15 15) 0 1).lifecycle ≠ .faulted ∧
    (∃ c, (reading (running 1 15 15) 0 1).context? 0 = some c ∧ c.portState = .haveP) ∧
    ∃ t, exec .hwTick (reading (running 1 15 15) 0 1) = .next t :=
  ⟨inv_example, by decide, ⟨_, rfl, rfl⟩, ⟨_, rfl⟩⟩

theorem witness_OnlyZeroAndIncrementWritePeriod : (∃ t, exec .inZero (initializing .zero) = .next t) ∧
    (∃ t, exec .sqIncOvf (serving 1 .incOvf ⟨false, false⟩) = .next t) ∧
    ∃ t, exec .sqIncCmp (serving 1 .incCmp ⟨false, false⟩) = .next t := ⟨⟨_, rfl⟩, ⟨_, rfl⟩, ⟨_, rfl⟩⟩

theorem witness_LifecycleMovesOnlyForward : Safety.Inv (reading (running 1 15 15) 0 1) ∧
    ∃ t, exec (.init 1) (reading (running 1 15 15) 0 1) = .next t := ⟨inv_example, ⟨_, rfl⟩⟩

theorem witness_NothingIsTornDownButByReset : ∃ t,
    step { running 1 15 15 with schedule := [.line (.mop 0 0xB0) (drawOf true 0)] } = .next t ∧
    (running 1 15 15).periodValid = true ∧ (running 1 15 15).hw.running = true ∧
    ∀ k, (running 1 15 15).hw.inten.get k = true := ⟨_, rfl, rfl, rfl, by intro k; cases k <;> rfl⟩

theorem witness_FlagsAreSetByTicksAndClearedByAcknowledgment :
    (∃ t, exec .hwTick (running 0 7 7) = .next t ∧ (running 0 7 7).hw.event.get .cmp = false ∧
      t.hw.event.get .cmp = true) ∧
    ∃ t, exec .sqAckOvf (serving 1 .ackOvf ⟨true, false⟩) = .next t ∧ t.hw.event.get .ovf = false :=
  ⟨⟨_, rfl, rfl, rfl⟩, ⟨_, rfl, rfl⟩⟩

theorem witness_LineStaysHighUntilAcknowledged : ∃ t, exec .sqAckOvf (serving 1 .ackOvf ⟨true, true⟩) = .next t ∧
    (serving 1 .ackOvf ⟨true, true⟩).line = true ∧ t.line = true := ⟨_, rfl, rfl, rfl⟩

/-- A running state with all events counted, one tick before OVF. -/
theorem accounted_example : Accounted (running 1 15 15) 15 where
  params := by decide
  ticks := rfl
  counter := by decide
  armed := by decide
  latching := by intro k; cases k <;> decide
  settled := rfl
  initDone := rfl
  begun := by decide
  checkedOvf := by intro h; cases h
  checkedCmp := by intro h; cases h
  period := by decide
  account := by decide

theorem witness_EveryEventIsAccountedFor : ∃ t, Accounted (running 1 15 15) 15 ∧ Takes .hwTick (running 1 15 15) t ∧
    LosesNoEvent .hwTick (running 1 15 15) :=
  ⟨_, accounted_example, ⟨rfl, (drawOf true 0), rfl⟩, fun _ => ⟨fun _ => rfl, fun _ => rfl⟩⟩

theorem witness_QuiescentParityGivesTheHalf : Accounted (running 1 15 15) 15 ∧ Quiescent (running 1 15 15) ∧
    (running 1 15 15).incsGhost < 2 ^ 32 ∧ (running 1 15 15).parity = true ∧ (running 2 3 19).parity = false :=
  ⟨accounted_example, ⟨rfl, .inl rfl⟩, by decide⟩

/-! A NOW whose counter sample comes after the tick that raises CMP: the run of EveryNowIsExactUnderLatencyAndGap. -/

/-- The states of the run. -/
def nowStates : Nat → State
  | 0 => running 0 7 7
  | 1 => reading (running 0 7 7) 0 0
  | 2 => (reading (running 0 8 8) 0 0).setHw ⟨8, true, false, 8, ⟨false, true⟩, ⟨true, true⟩⟩
  | _ => { (running 0 8 8) with
      hw := ⟨8, true, false, 8, ⟨false, true⟩, ⟨true, true⟩⟩
      contexts := [⟨.idle, some 0, some 8, some 8, some (.timestamp 8)⟩, Context.atReset] }

/-- Its steps. -/
def nowLabels : Nat → Instr
  | 0 => .now 0
  | 1 => .hwTick
  | _ => .rdSampleC 0

/-- The tick count in each state. -/
def nowTicks : Nat → Nat
  | 0 => 7
  | 1 => 7
  | _ => 8

theorem witness_EveryNowIsExactUnderLatencyAndGap :
    IsRun nowStates nowLabels 3 ∧ Accounted (nowStates 0) (nowTicks 0) ∧
    (∀ k ≤ 3, (nowStates k).tGhost = some (nowTicks k)) ∧ (∀ k < 3, LosesNoEvent (nowLabels k) (nowStates k)) ∧
    (∀ k ≤ 3, (nowStates k).incsGhost < 2 ^ 32) ∧ (∀ k ≤ 3, LatencyAtMost 6 (nowStates k)) ∧
    6 + 1 < halfTicks (nowStates 0).params.W ∧ nowLabels 0 = .now 0 ∧ nowLabels 2 = .rdSampleC 0 ∧
    (∀ k, 0 < k → k < 2 → nowLabels k ≠ .rdSampleC 0) ∧ nowTicks 2 ≤ nowTicks 0 + 1 := by
  have four : ∀ {P : Nat → Prop}, P 0 → P 1 → P 2 → P 3 → ∀ k ≤ 3, P k := by
    intro P h0 h1 h2 h3 k hk
    obtain rfl | rfl | rfl | rfl : k = 0 ∨ k = 1 ∨ k = 2 ∨ k = 3 := by omega
    all_goals assumption
  refine ⟨?_, ?_, ?_, ?_, ?_, ?_, by decide, rfl, rfl, ?_, by decide⟩
  · intro k hk
    obtain rfl | rfl | rfl : k = 0 ∨ k = 1 ∨ k = 2 := by omega
    all_goals exact ⟨rfl, (drawOf true 0xFFFFFFF0), rfl⟩
  · exact ⟨by decide, rfl, by decide, by decide, (by intro k; cases k <;> decide), rfl, rfl, by decide,
      (by intro h; cases h), (by intro h; cases h), by decide, by decide⟩
  · exact four rfl rfl rfl rfl
  · intro k hk
    obtain rfl | rfl | rfl : k = 0 ∨ k = 1 ∨ k = 2 := by omega
    all_goals first | exact fun _ => ⟨fun _ => rfl, fun _ => rfl⟩ | (intro h; cases h)
  · exact four (by decide) (by decide) (by decide) (by decide)
  · refine four ?_ ?_ ?_ ?_
    all_goals
      intro t k ht hk
      change k * 8 + 6 < t at hk
      cases ht
      omega
  · intro k h1 h2
    obtain rfl : k = 1 := by omega
    decide

/-! An unending run: one service of a pending OVF, then spurious services for ever. -/

/-- The states of the run. -/
def serviceStates (k : Nat) : State :=
  match k with
  | 0 => serving 1 .idle ⟨true, false⟩
  | 1 => serving 1 .chkOvf ⟨true, false⟩
  | 2 => serving 1 .ackOvf ⟨true, false⟩
  | 3 => serving 1 .incOvf ⟨false, false⟩
  | 4 => serving 2 .chkCmp ⟨false, false⟩
  | 5 => serving 2 .exit ⟨false, false⟩
  | k + 6 =>
    match k % 4 with
    | 0 => serving 2 .idle ⟨false, false⟩
    | 1 => serving 2 .chkOvf ⟨false, false⟩
    | 2 => serving 2 .chkCmp ⟨false, false⟩
    | _ => serving 2 .exit ⟨false, false⟩

/-- Its steps. -/
def serviceLabels (k : Nat) : Instr :=
  match (serviceStates k).seqState with
  | .idle => .sqEnter
  | .chkOvf => .sqChkOvf
  | .ackOvf => .sqAckOvf
  | .incOvf => .sqIncOvf
  | .chkCmp => .sqChkCmp
  | .ackCmp => .sqAckCmp
  | .incCmp => .sqIncCmp
  | .exit => .sqExit

theorem service_run : IsEndlessRun serviceStates serviceLabels := by
  intro k
  match k with
  | 0 | 1 | 2 | 3 | 4 | 5 => exact ⟨rfl, (drawOf true 0xFFFFFFF0), rfl⟩
  | k + 6 =>
    have h := Nat.mod_lt k (show 0 < 4 by decide)
    have e : (k + 1) % 4 = if k % 4 = 3 then 0 else k % 4 + 1 := by split <;> omega
    show Takes (serviceLabels (k + 6)) (serviceStates (k + 6)) (serviceStates (k + 1 + 6))
    simp only [serviceLabels, serviceStates, e]
    generalize k % 4 = m at h
    obtain rfl | rfl | rfl | rfl : m = 0 ∨ m = 1 ∨ m = 2 ∨ m = 3 := by omega
    all_goals exact ⟨rfl, (drawOf true 0xFFFFFFF0), rfl⟩

theorem service_fair : DeliveryFair serviceStates serviceLabels := by
  constructor
  · intro n _ hq _
    exact ⟨n, Nat.le_refl n, .inl (by simp [serviceLabels, hq])⟩
  · intro n hq
    refine ⟨n, Nat.le_refl n, ?_⟩
    unfold serviceLabels
    cases h : (serviceStates n).seqState <;> first | exact absurd h hq | rfl

theorem witness_EveryServiceEnds : IsEndlessRun serviceStates serviceLabels ∧ DeliveryFair serviceStates serviceLabels :=
  ⟨service_run, service_fair⟩

theorem witness_PendingEventIsEventuallyAcknowledged :
    IsEndlessRun serviceStates serviceLabels ∧ DeliveryFair serviceStates serviceLabels ∧
    (serviceStates 0).hw.event.get .ovf = true ∧ (serviceStates 0).hw.inten.get .ovf = true ∧
    (serviceStates 0).periodValid = true := ⟨service_run, service_fair, rfl, rfl, rfl⟩

/-! Fair runs for FairRunsProgress: an init that polls for ever; an init past its poll whose clear applies; a counter that
ticks for ever. -/

/-- in.zero to in.start, and then polls that read the residual count. -/
def pollStates (k : Nat) : State :=
  let s1 := after .inZero (initializing .zero)
  let s2 := after .inSetcmp s1
  let s3 := after .inClear s2
  match k with
  | 0 => initializing .zero
  | 1 => s1
  | 2 => s2
  | 3 => s3
  | _ => after .inStart s3

/-- Its steps. -/
def pollLabels : Nat → Instr
  | 0 => .inZero
  | 1 => .inSetcmp
  | 2 => .inClear
  | 3 => .inStart
  | _ => .inPoll

theorem poll_run : IsEndlessRun pollStates pollLabels := by
  intro k
  match k with
  | 0 | 1 | 2 | 3 => exact ⟨rfl, (drawOf true 0xFFFFFFF0), rfl⟩
  | _ + 4 =>
    refine ⟨rfl, (drawOf true 0xFFFFFFF0), ?_⟩
    have h : respCounter 4 (joinLow 4 9 0xFFFFFFF0) ≠ 0 := by decide
    exact congrArg (fun q => Host.Outcome.next ((pollStates 4).setInitState q)) (if_neg h)

theorem poll_fair : InitFair pollStates pollLabels := by
  intro n _
  refine ⟨n, Nat.le_refl n, ?_⟩
  match n with
  | 0 | 1 | 2 | 3 => rfl
  | _ + 4 => rfl

/-- The clear applies, the two enables come, and then spurious services for ever. -/
def finishStates (k : Nat) : State :=
  let s0 := (initializing .enOvf).setHw ⟨9, true, true, 8, ⟨false, false⟩, ⟨false, false⟩⟩
  let s1 := after .hwClearApply s0
  let s2 := after .inEnOvf s1
  let t := after .inEnCmp s2
  match k with
  | 0 => s0
  | 1 => s1
  | 2 => s2
  | k + 3 =>
    match k % 4 with
    | 0 => t
    | 1 => t.setSeqState .chkOvf
    | 2 => t.setSeqState .chkCmp
    | _ => t.setSeqState .exit

/-- Its steps. -/
def finishLabels : Nat → Instr
  | 0 => .hwClearApply
  | 1 => .inEnOvf
  | 2 => .inEnCmp
  | k + 3 =>
    match k % 4 with
    | 0 => .sqEnter
    | 1 => .sqChkOvf
    | 2 => .sqChkCmp
    | _ => .sqExit

theorem finish_run : IsEndlessRun finishStates finishLabels := by
  intro k
  match k with
  | 0 | 1 | 2 => exact ⟨rfl, (drawOf true 0xFFFFFFF0), rfl⟩
  | k + 3 =>
    have h := Nat.mod_lt k (show 0 < 4 by decide)
    have e : (k + 1) % 4 = if k % 4 = 3 then 0 else k % 4 + 1 := by split <;> omega
    show Takes (finishLabels (k + 3)) (finishStates (k + 3)) (finishStates (k + 1 + 3))
    simp only [finishLabels, finishStates, e]
    generalize k % 4 = m at h
    obtain rfl | rfl | rfl | rfl : m = 0 ∨ m = 1 ∨ m = 2 ∨ m = 3 := by omega
    all_goals exact ⟨rfl, (drawOf true 0xFFFFFFF0), rfl⟩

/-- From its fourth state on that run has no init to take and no clear pending. -/
theorem finish_settled (k : Nat) :
    (finishStates (k + 3)).initState = .idle ∧ (finishStates (k + 3)).hw.clearPending = false := by
  have h := Nat.mod_lt k (show 0 < 4 by decide)
  simp only [finishStates]
  generalize k % 4 = m at h
  obtain rfl | rfl | rfl | rfl : m = 0 ∨ m = 1 ∨ m = 2 ∨ m = 3 := by omega
  all_goals exact ⟨rfl, rfl⟩

theorem finish_fair : InitFair finishStates finishLabels ∧ ClearFair finishStates finishLabels := by
  constructor
  · intro n hn
    match n with
    | 0 => exact ⟨1, by decide, rfl⟩
    | 1 => exact ⟨1, by decide, rfl⟩
    | 2 => exact ⟨2, by decide, rfl⟩
    | k + 3 => exact absurd (finish_settled k).1 hn
  · intro n hn
    match n with
    | 0 => exact ⟨0, by decide, rfl⟩
    | 1 => cases hn
    | 2 => cases hn
    | k + 3 => rw [(finish_settled k).2] at hn; cases hn

/-- Ticks for ever, both flags already set. -/
def tickStates (k : Nat) : State :=
  { running 0 0 k with hw := ⟨BitVec.ofNat 32 (k % 16), true, false, 8, ⟨true, true⟩, ⟨true, true⟩⟩ }

theorem tick_run : IsEndlessRun tickStates (fun _ => .hwTick) := by
  intro k
  have h := Nat.mod_lt k (show 0 < 16 by decide)
  have e : (k + 1) % 16 = (k % 16 + 1) % 16 := by omega
  refine ⟨rfl, (drawOf true 0xFFFFFFF0), ?_⟩
  have hh : ∀ m < 16, (⟨BitVec.ofNat 32 m, true, false, 8, ⟨true, true⟩, ⟨true, true⟩⟩ : Peripheral).tick p4 =
      ⟨BitVec.ofNat 32 ((m + 1) % 16), true, false, 8, ⟨true, true⟩, ⟨true, true⟩⟩ := by decide
  unfold tickStates
  rw [e]
  exact congrArg (fun x => Host.Outcome.next { running 0 0 (k + 1) with hw := x }) (hh _ h)

theorem witness_FairRunsProgress :
    (IsEndlessRun pollStates pollLabels ∧ InitFair pollStates pollLabels ∧
      (pollStates 0).lifecycle = .initializing ∧ (pollStates 0).initState = .zero) ∧
    (IsEndlessRun finishStates finishLabels ∧ InitFair finishStates finishLabels ∧
      (finishStates 0).lifecycle = .initializing ∧ (finishStates 0).initState = .enOvf) ∧
    (ClearFair finishStates finishLabels ∧ (finishStates 0).hw.clearPending = true) ∧
    IsEndlessRun tickStates (fun _ => .hwTick) ∧ TickFair tickStates (fun _ => .hwTick) ∧
    (tickStates 0).hw.running = true :=
  ⟨⟨poll_run, poll_fair, rfl, rfl⟩, ⟨finish_run, finish_fair.1, rfl, rfl⟩, ⟨finish_fair.2, rfl⟩, tick_run,
    fun n _ => ⟨n, Nat.le_refl n, rfl⟩, rfl⟩

end Sys2Proof.Tests
end

section
/-!
SUPPORT. From lines to instructions and back (30_encoding.md R80 to R92): the decoder reads back what the encoder writes,
reads no other line as an instruction, and leaves the words that the tables do not list.
-/

namespace Sys2Proof

/-! ## The nibbles of a word -/

@[simp] theorem hiNibble_nibbles (hi lo : BitVec 4) : hiNibble (nibbles hi lo) = hi :=
  BitVec.extractLsb'_append_eq_left

@[simp] theorem loNibble_nibbles (hi lo : BitVec 4) : loNibble (nibbles hi lo) = lo :=
  BitVec.extractLsb'_append_eq_right

theorem hiNibble_toNat (w : Byte) : (hiNibble w).toNat = w.toNat / 16 := by
  have := w.isLt
  simp only [hiNibble, BitVec.extractLsb'_toNat, Nat.shiftRight_eq_div_pow]
  omega

theorem loNibble_toNat (w : Byte) : (loNibble w).toNat = w.toNat % 16 := by
  simp [loNibble, BitVec.extractLsb'_toNat]

theorem toNat_eq_nibbles (w : Byte) : w.toNat = 16 * (hiNibble w).toNat + (loNibble w).toNat := by
  rw [hiNibble_toNat, loNibble_toNat]
  omega

/-- A word is known by its two nibbles. -/
theorem eq_ofNat_of_nibbles {w : Byte} {hi lo : Nat} (hhi : (hiNibble w).toNat = hi) (hlo : (loNibble w).toNat = lo) :
    w = BitVec.ofNat 8 (16 * hi + lo) := by
  rw [← hhi, ← hlo, ← toNat_eq_nibbles, BitVec.ofNat_toNat, BitVec.setWidth_eq]

@[simp] theorem nibbles_hi_lo (w : Byte) : nibbles (hiNibble w) (loNibble w) = w := by
  apply BitVec.eq_of_toNat_eq
  rw [toNat_eq_nibbles w, toNat_eq_nibbles, hiNibble_nibbles, loNibble_nibbles]

/-! ## Event kinds -/

@[simp] theorem kindOf_code (k : Kind) : kindOf k.code = some k := by
  cases k <;> rfl

theorem code_of_kindOf {arg : BitVec 4} {k : Kind} (h : kindOf arg = some k) : k.code = arg := by
  unfold kindOf at h
  split at h
  case h_3 => cases h
  all_goals
    cases h
    exact BitVec.eq_of_toNat_eq (Eq.symm ‹_›)

theorem kindOf_eq_none {arg : BitVec 4} (h0 : arg.toNat ≠ 0) (h1 : arg.toNat ≠ 1) : kindOf arg = none := by
  unfold kindOf
  split
  · contradiction
  · contradiction
  · rfl

/-! ## Decoding an encoding -/

/-- The decoder reads back every instruction from its line. -/
theorem decode_encode (i : Instr) : decode (encode i) = .instr i := by
  cases i with
  | setCompare slot data => simp [encode, decode, decodePcp, commandOf]
  | enableInterrupt k => simp [encode, decode, decodePcp, commandOf]
  | isEventTriggered k => simp [encode, decode, decodePcp, commandOf]
  | resetEvent k => simp [encode, decode, decodePcp, commandOf]
  | _ => rfl

theorem encode_inj {i j : Instr} : encode i = encode j ↔ i = j := by
  constructor
  · intro h
    have hd := congrArg decode h
    rw [decode_encode, decode_encode] at hd
    exact Decoded.instr.inj hd
  · exact congrArg encode

/-! ## Only an encoding decodes -/

/-- A request word's high nibble is its OP, because Z is 0 (R81). -/
theorem hiNibble_of_request {w : Byte} {op : Nat} (hz : (w.extractLsb' 7 1).toNat = 0)
    (hop : (w.extractLsb' 4 3).toNat = op) : (hiNibble w).toNat = op := by
  have := w.isLt
  simp only [BitVec.extractLsb'_toNat, Nat.shiftRight_eq_div_pow] at hz hop
  rw [hiNibble_toNat]
  omega

theorem encode_of_decodeUrp {src w : Byte} {i : Instr} (h : decodeUrp src w = .instr i) : encode i = .urp src w := by
  unfold decodeUrp at h
  split at h
  case h_4 => cases h
  all_goals
    rename_i hz hop hlo
    obtain rfl := eq_ofNat_of_nibbles (hiNibble_of_request hz hop) hlo
    cases h
    rfl

/-- The step of a step code encodes to it, with the context id that the step carries (R92). -/
theorem encode_of_stepOf {ctx w : Byte} {i : Instr} (h : stepOf ctx w = some i) :
    encode i = .mop (if hiNibble w = 8 then ctx else 0) w := by
  unfold stepOf at h
  split at h
  case h_20 => cases h
  all_goals
    rename_i hhi hlo
    obtain rfl := eq_ofNat_of_nibbles hhi hlo
    cases h
    rfl

theorem encode_of_decodeMop {ctx w : Byte} {i : Instr} (h : decodeMop ctx w = .instr i) : encode i = .mop ctx w := by
  unfold decodeMop at h
  split at h
  · cases h
  · rename_i j hj
    split at h
    · rename_i hc
      cases h
      rcases hc with hc | hc <;> simp [encode_of_stepOf hj, hc]
    · cases h

/-- The command of a command word encodes to it, with the DATA that the command carries (R86). -/
theorem encode_of_commandOf {w : Byte} {data : Word} {i : Instr} (h : commandOf w data = some i) :
    encode i = .pcp w (if hiNibble w = 2 then data else 0) := by
  unfold commandOf at h
  split at h
  case h_8 => cases h
  case h_2 hhi =>
    cases h
    have hop : hiNibble w = 2 := BitVec.eq_of_toNat_eq hhi
    rw [if_pos hop, encode, ← hop, nibbles_hi_lo]
  case h_5 hhi | h_6 hhi | h_7 hhi =>
    obtain ⟨k, hk, rfl⟩ := Option.map_eq_some_iff.mp h
    obtain rfl := eq_ofNat_of_nibbles hhi (congrArg BitVec.toNat (code_of_kindOf hk).symm)
    cases k <;> rfl
  case h_1 hhi hlo | h_3 hhi hlo | h_4 hhi hlo =>
    obtain rfl := eq_ofNat_of_nibbles hhi hlo
    cases h
    rfl

theorem encode_of_decodePcp {w : Byte} {data : Word} {i : Instr} (h : decodePcp w data = .instr i) :
    encode i = .pcp w data := by
  unfold decodePcp at h
  split at h
  · cases h
  · rename_i j hj
    split at h
    · rename_i hd
      cases h
      rcases hd with hd | hd <;> simp [encode_of_commandOf hj, hd]
    · cases h

/-- A line that decodes to an instruction is that instruction's line. -/
theorem encode_of_decode {l : Line} {i : Instr} (h : decode l = .instr i) : encode i = l := by
  cases l with
  | urp src w => exact encode_of_decodeUrp h
  | mop ctx w => exact encode_of_decodeMop h
  | pcp w data => exact encode_of_decodePcp h

/-! ## Words that the tables do not list -/

theorem stepOf_eq_none {ctx w : Byte}
    (h : w.toNat ∉ [0x80, 0x81, 0x90, 0x91, 0x92, 0x93, 0x94, 0x95, 0x96, 0x97, 0xA1, 0xA2, 0xA3, 0xA4, 0xA5, 0xA6,
      0xA7, 0xB0, 0xB1]) : stepOf ctx w = none := by
  rw [toNat_eq_nibbles] at h
  unfold stepOf
  split
  case h_20 => rfl
  all_goals
    rename_i hhi hlo
    simp [hhi, hlo] at h

theorem commandOf_eq_none {w : Byte} {data : Word} (hcompare : ¬(0x20 ≤ w.toNat ∧ w.toNat ≤ 0x2F))
    (h : w.toNat ∉ [0x10, 0x30, 0x40, 0x50, 0x51, 0x60, 0x61, 0x70, 0x71]) : commandOf w data = none := by
  have := (loNibble w).isLt
  rw [toNat_eq_nibbles] at h hcompare
  unfold commandOf
  split
  case h_8 => rfl
  case h_5 hhi | h_6 hhi | h_7 hhi =>
    simp only [List.mem_cons, not_or, hhi] at h
    rw [kindOf_eq_none (by omega) (by omega)]
    rfl
  case h_2 hhi => omega
  case h_1 hhi hlo | h_3 hhi hlo | h_4 hhi hlo => simp [hhi, hlo] at h

end Sys2Proof
end

section
/-!
SUPPORT. What a step of the machine is, for each kind of input (00_scope.md R13; 30_encoding.md R99, R100), and what a
free choice and a placed line are.
-/

namespace Sys2Proof.Machine

open Sys2Proof.Safety

variable {s t : State}

/-! ## One equation per kind of input -/

theorem step_of_line {l : Line} {d : Draw} {rest : List Input} (h : s.schedule = .line l d :: rest) :
    step s = runLine l (s.take rest d) := by
  simp [step, runNext, h]

theorem step_of_text {a : Agent} {m : Mnemonic} {d : Draw} {rest : List Input}
    (h : s.schedule = .text a m d :: rest) : step s = runText a m d rest s := by
  simp [step, runNext, h]

theorem step_of_nil (h : s.schedule = []) : step s = runChoice (Config.choice s.draws) s := by
  simp [step, runNext, h]

theorem runLine_of_instr {l : Line} {i : Instr} (h : decode l = .instr i) (s : State) : runLine l s = exec i s := by
  simp [runLine, h]

theorem runLine_of_rejected {l : Line} {r : Reject} (h : decode l = .rejected r) (s : State) :
    runLine l s = runRejected l r s := by
  simp [runLine, h]

theorem runText_of_cons {a : Agent} {m : Mnemonic} {l : Line} {ls : List Line} (h : s.assemble a m = some (l :: ls))
    (d : Draw) (rest : List Input) :
    runText a m d rest s = runLine l (s.take (ls.map (fun k => .line k d) ++ rest) d) := by
  simp [runText, h]

theorem runText_of_none {a : Agent} {m : Mnemonic} (h : s.assemble a m = none) (d : Draw) (rest : List Input) :
    runText a m d rest s = .refused .noSuchLine := by
  simp [runText, h]

/-! ## Free choices -/

/-- The choice that names a request or a step code, with any draw of the environment; no choice names a command. -/
def choiceOfLine (d : Draw) : Line → Choice
  | .urp src w => ⟨false, src, w, d⟩
  | .mop ctx w => ⟨true, ctx, w, d⟩
  | .pcp w _ => ⟨false, 0, w, d⟩

theorem lineOfChoice_mop {ctx w : Byte} (h : hiNibble w = 8 ∨ ctx = 0) (d : Draw) :
    lineOfChoice (choiceOfLine d (.mop ctx w)) = .mop ctx w := by
  rcases h with h | h <;> simp [choiceOfLine, lineOfChoice, h]

/-- Every step of every agent is the line of a choice (R13); a command on the bench is not. -/
theorem lineOfChoice_choiceOfLine {i : Instr} (h : isAgentStep i = true) (d : Draw) :
    lineOfChoice (choiceOfLine d (encode i)) = encode i := by
  cases i with
  | getCounter | setCompare _ _ | clearCounter | enableCounter | enableInterrupt _ | isEventTriggered _ | resetEvent _ =>
    cases h
  | init _ | now _ | irqService _ => rfl
  | rdSampleP _ | rdSampleC _ => exact lineOfChoice_mop (.inl rfl) d
  | _ => exact lineOfChoice_mop (.inr rfl) d

/-- The scheduler withholds exactly RTC_IRQ's IRQ_SERVICE before in.zero (R170, R271). -/
theorem choiceEnabled_eq_false_iff {c : Choice} {i : Instr} (h : decode (lineOfChoice c) = .instr i) :
    choiceEnabled c s = false ↔ i = .irqService rtcIrq ∧ s.periodValid = false := by
  have hi : lineOfChoice c = encode (.irqService rtcIrq) ↔ i = .irqService rtcIrq := by
    rw [← encode_of_decode h, encode_inj]
  change (!(lineOfChoice c == encode (.irqService rtcIrq) && !s.periodValid)) = false ↔ _
  simp [hi]

theorem runChoice_of_next {c : Choice} (he : choiceEnabled c (s.takeChoice c.draw) = true)
    (h : runLine (lineOfChoice c) (s.takeChoice c.draw) = .next t) : runChoice c s = .next t := by
  simp [runChoice, he, h]

theorem runChoice_of_refused {c : Choice} {r : Refusal}
    (h : runLine (lineOfChoice c) (s.takeChoice c.draw) = .refused r) : runChoice c s = .next (s.takeChoice c.draw) := by
  simp [runChoice, h]

theorem runChoice_of_not_enabled {c : Choice} (he : choiceEnabled c (s.takeChoice c.draw) = false) :
    runChoice c s = .next (s.takeChoice c.draw) := by
  simp [runChoice, he]

/-! ## Placed lines -/

theorem readyIssuer_draw (s : State) (src : Byte) : (s.readyIssuer src).draw = s.draw := by
  unfold State.readyIssuer
  split <;> rfl

/-- Selecting a step leaves the environment's draw. -/
theorem select_draw (s : State) (i : Instr) : (s.select i).draw = s.draw := by
  cases i with
  | init src | now src | irqService src | rdSampleP src => exact readyIssuer_draw s src
  | _ => rfl

theorem place_encode (s : State) (i : Instr) :
    s.place (encode i) = { s.select i with schedule := .line (encode i) s.draw :: s.schedule } := by
  simp [State.place, decode_encode]

/-! ## Refusals -/

/-- In FAULTED only a refusal is left (R14): no instruction answers a next state, and none a fault outcome, because a
fault of the block is a next state (R236). -/
theorem exec_refused_of_faulted (h : s.lifecycle = .faulted) (i : Instr) : ∃ r, exec i s = .refused r := by
  cases hx : exec i s with
  | next t => exact absurd h (exec_next hx).1
  | fault f => exact nomatch f
  | refused r => exact ⟨r, rfl⟩

end Sys2Proof.Machine
end

section
/-!
SUPPORT. What no step takes down (10_state.md R23, R36, R40; 60_exceptions.md R241): a relation between the states before
and after a step, kept by every instruction, line and free choice.
-/

namespace Sys2Proof.Machine

variable {s t u : State}

/-- `t` has the parameters, the contexts and the bench of `s`, and every bit of `s` that is set for good. -/
structure Upholds (s t : State) : Prop where
  params : t.params = s.params
  readers : t.contexts.length = s.contexts.length
  bench : t.bench = s.bench
  periodValid : s.periodValid = true → t.periodValid = true
  running : s.hw.running = true → t.hw.running = true
  inten : ∀ k, s.hw.inten.get k = true → t.hw.inten.get k = true

theorem Upholds.trans (h : Upholds s t) (h' : Upholds t u) : Upholds s u where
  params := h'.params.trans h.params
  readers := h'.readers.trans h.readers
  bench := h'.bench.trans h.bench
  periodValid hs := h'.periodValid (h.periodValid hs)
  running hs := h'.running (h.running hs)
  inten k hs := h'.inten k (h.inten k hs)

/-- The bookkeeping of a step writes none of it. -/
theorem take_upholds (s : State) (rest : List Input) (d : Draw) : Upholds s (s.take rest d) :=
  ⟨rfl, rfl, rfl, id, id, fun _ => id⟩

theorem takeChoice_upholds (s : State) (d : Draw) : Upholds s (s.takeChoice d) :=
  ⟨rfl, rfl, rfl, id, id, fun _ => id⟩

theorem enterFault_upholds (s : State) (cause : Cause) (op src : Byte) : Upholds s (s.enterFault cause op src) :=
  ⟨rfl, rfl, rfl, id, id, fun _ => id⟩

theorem enableInterrupt_inten {h : Peripheral} {k k' : Kind} (hk : h.inten.get k' = true) :
    (h.enableInterrupt k).inten.get k' = true := by
  simp [Peripheral.enableInterrupt, KindBits.get_set, hk]

theorem OwnEffect.upholds {i : Instr} (h : OwnEffect s t i) : Upholds s t := by
  cases i with
  | init src | now src | rdSampleP src =>
    obtain ⟨-, -, -, rfl⟩ := h
    exact ⟨rfl, modifyContext_length _, rfl, id, id, fun _ => id⟩
  | rdSampleC r =>
    obtain ⟨c, p, -, -, -, rfl⟩ := h
    exact ⟨rfl, modifyContext_length _, rfl, id, id, fun _ => id⟩
  | irqService src =>
    obtain ⟨-, -, -, rfl⟩ := h
    exact ⟨rfl, rfl, rfl, id, id, fun _ => id⟩
  | sqEnter =>
    obtain ⟨-, -, rfl⟩ := h
    exact ⟨rfl, rfl, rfl, id, id, fun _ => id⟩
  | setCompare slot data =>
    obtain ⟨-, rfl⟩ := h
    exact ⟨rfl, rfl, rfl, id, by simp, by simp⟩
  | inSetcmp =>
    obtain ⟨-, -, rfl⟩ := h
    exact ⟨rfl, rfl, rfl, id, by simp, by simp⟩
  | inZero =>
    obtain ⟨-, rfl⟩ := h
    exact ⟨rfl, rfl, rfl, fun _ => rfl, id, fun _ => id⟩
  | enableCounter | inStart =>
    obtain ⟨-, rfl⟩ := h
    exact ⟨rfl, rfl, rfl, id, fun _ => rfl, fun _ => id⟩
  | enableInterrupt _ | inEnOvf =>
    obtain ⟨-, rfl⟩ := h
    exact ⟨rfl, rfl, rfl, id, id, fun _ => enableInterrupt_inten⟩
  | inEnCmp =>
    obtain ⟨-, o, c, -, -, rfl⟩ := h
    exact ⟨rfl, modifyContext_length _, rfl, id, id, fun _ => enableInterrupt_inten⟩
  | _ =>
    obtain ⟨-, rfl⟩ := h
    exact ⟨rfl, rfl, rfl, id, id, fun _ => id⟩

theorem exec_upholds {i : Instr} (h : exec i s = .next t) : Upholds s t := by
  obtain ⟨-, hf | ho⟩ := exec_next h
  · obtain ⟨cause, op, src, -, rfl⟩ := hf.enters
    exact enterFault_upholds s cause op src
  · exact ho.upholds

theorem runLine_upholds {l : Line} (h : runLine l s = .next t) : Upholds s t := by
  rcases runLine_next h with ⟨i, -, hx⟩ | ⟨src, w, -, -, rfl⟩
  · exact exec_upholds hx
  · exact enterFault_upholds s _ w src

theorem runChoice_upholds {c : Choice} (h : runChoice c s = .next t) : Upholds s t := by
  rcases runChoice_next h with hl | rfl
  · exact (takeChoice_upholds s c.draw).trans (runLine_upholds hl)
  · exact takeChoice_upholds s c.draw

/-- Everything but a reset upholds what is set for good. -/
theorem step_upholds_or_resets (h : step s = .next t) :
    Upholds s t ∨ ∃ d rest, s.schedule = .reset d :: rest ∧ t = (s.take rest s.draw).applyReset d := by
  rcases step_next h with hr | ⟨l, d, rest, -, hl⟩ | ⟨a, m, d, rest, l, ls, -, -, hl⟩ | ⟨-, hc⟩
  · exact .inr hr
  · exact .inl ((take_upholds s rest d).trans (runLine_upholds hl))
  · exact .inl ((take_upholds s _ d).trans (runLine_upholds hl))
  · exact .inl (runChoice_upholds hc)

end Sys2Proof.Machine
end

section
/-! PROOFS. The statements of the scope (00_scope.md): what a step runs, and what it never does. -/

namespace Sys2Proof.Machine

open Sys2Proof.Safety

/-- Settles O3: a line that the tables do not list decodes to a rejection, and a line of text without an expansion runs
none. -/
theorem reservedStepsAndCommandsAreRefused : Obligations.ReservedStepsAndCommandsAreRefused := by
  refine ⟨?_, ?_, ?_, ?_, fun _ => rfl⟩
  · intro s ctx w d rest hs hw
    have hd : decode (.mop ctx w) = .rejected (.reservedStep w) := by
      simp [decode, decodeMop, stepOf_eq_none hw]
    rw [step_of_line hs, runLine_of_rejected hd]
    rfl
  · intro s w data d rest hs hcompare hw
    have hd : decode (.pcp w data) = .rejected (.reservedCommand w) := by
      simp [decode, decodePcp, commandOf_eq_none hcompare hw]
    rw [step_of_line hs, runLine_of_rejected hd]
    rfl
  · intro s a m d rest hs ha
    rw [step_of_text hs, runText_of_none ha]
  · intro s r m hr
    have hid : contextId r = none := if_neg (by omega)
    cases m <;> simp [State.assemble, hid]

/-- Settles O4: the choices reach every agent line, and a choice runs its line or leaves the bookkeeping alone. -/
theorem freeSchedulerTakesOnlyEnabledSteps : Obligations.FreeSchedulerTakesOnlyEnabledSteps := by
  refine ⟨fun s => step_of_nil, ?_, ?_⟩
  · intro i hi
    exact ⟨choiceOfLine default (encode i), by rw [lineOfChoice_choiceOfLine hi, decode_encode]⟩
  · intro s c i hd
    refine ⟨?_, ?_, ?_⟩
    · intro t hirq ht
      have he : choiceEnabled c (s.takeChoice c.draw) = true := by
        rw [← Bool.not_eq_false, choiceEnabled_eq_false_iff hd]
        rintro ⟨hi, hv⟩
        exact Bool.false_ne_true (hv.symm.trans (hirq hi))
      exact runChoice_of_next he ((runLine_of_instr hd _).trans ht)
    · intro r hr
      exact runChoice_of_refused ((runLine_of_instr hd _).trans hr)
    · intro hi hv
      exact runChoice_of_not_enabled ((choiceEnabled_eq_false_iff hd).mpr ⟨hi, hv⟩)

/-- Settles O5: the placed line decodes to its instruction, and selecting the step leaves the draw. -/
theorem stepRunsThePlacedInstruction : Obligations.StepRunsThePlacedInstruction := by
  intro s i
  rw [place_encode, step_of_line rfl, runLine_of_instr (decode_encode i), State.take, ← select_draw s i]

/-- Settles O44: an instruction with a next state shows that the block was not faulted. -/
theorem noAgentStepsWhenFaulted : Obligations.NoAgentStepsWhenFaulted :=
  fun i _ h => exec_refused_of_faulted h i

/-- Settles O55: a step upholds what is set for good, or it is a reset, which keeps what is no register. -/
theorem nothingIsTornDownButByReset : Obligations.NothingIsTornDownButByReset := by
  intro s t h
  rcases step_upholds_or_resets h with hu | ⟨d, rest, hs, rfl⟩
  · exact ⟨hu.params, hu.readers, hu.bench, fun _ => ⟨hu.periodValid, hu.running, hu.inten⟩⟩
  · exact ⟨rfl, List.length_map _, rfl, fun hn => absurd hs (hn d rest)⟩

/-- Settles O1: a line is taken and then run, and a line of text takes the first line of its expansion. -/
theorem stepRunsTheDecodedInstruction : Obligations.StepRunsTheDecodedInstruction := by
  constructor
  · intro s l d rest i hs hd
    rw [step_of_line hs, runLine_of_instr hd]
    rfl
  · intro s a m d rest ls hs ha
    cases ls with
    | nil => exact absurd ha assemble_ne_nil
    | cons l ls =>
      refine ⟨List.cons_ne_nil l ls, ?_⟩
      rw [step_of_text hs, runText_of_cons ha, step_of_line rfl]
      rfl

end Sys2Proof.Machine
end

section
/-!
SUPPORT. The registers that an instruction leaves alone (10_state.md R22, R24, R39): PERIOD, LIFECYCLE and the event flags
keep their values but in the steps that the spec names as their writers.
-/

namespace Sys2Proof.Machine

variable {i : Instr} {s t : State}

@[simp] theorem Peripheral.clearCounter_event (h : Peripheral) : h.clearCounter.event = h.event := rfl
@[simp] theorem Peripheral.enableCounter_event (h : Peripheral) : h.enableCounter.event = h.event := rfl
@[simp] theorem Peripheral.enableInterrupt_event (h : Peripheral) (k : Kind) :
    (h.enableInterrupt k).event = h.event := rfl
@[simp] theorem Peripheral.applyClear_event (h : Peripheral) : h.applyClear.event = h.event := rfl

/-- What an instruction's own effect leaves as it was, unless the instruction is a writer of it. -/
structure Unwritten (i : Instr) (s t : State) : Prop where
  period : i ≠ .inZero → i ≠ .sqIncOvf → i ≠ .sqIncCmp → t.period = s.period
  lifecycle : (∀ r, i ≠ .init r) → i ≠ .inEnCmp → t.lifecycle = s.lifecycle
  event : i ≠ .hwTick → (∀ k, i ≠ .resetEvent k) → i ≠ .sqAckOvf → i ≠ .sqAckCmp → t.hw.event = s.hw.event

theorem OwnEffect.unwritten (h : OwnEffect s t i) : Unwritten i s t := by
  cases i with
  | init _ | now _ | rdSampleP _ | irqService _ => obtain ⟨-, -, -, rfl⟩ := h; constructor <;> simp
  | rdSampleC _ => obtain ⟨_, _, -, -, -, rfl⟩ := h; constructor <;> simp
  | sqEnter | inSetcmp => obtain ⟨-, -, rfl⟩ := h; constructor <;> simp
  | inEnCmp => obtain ⟨-, _, _, -, -, rfl⟩ := h; constructor <;> simp
  | _ => obtain ⟨-, rfl⟩ := h; constructor <;> simp

/-- The step of the interrupt sequencer that acknowledges an event of kind `k` (R173, R176). -/
def ackStep : Kind → Instr
  | .ovf => .sqAckOvf
  | .cmp => .sqAckCmp

/-- A tick clears no flag (R39, R116). -/
theorem tick_event_of_set {h : Peripheral} {k : Kind} (hk : h.event.get k = true) (p : Params) :
    (h.tick p).event.get k = true := by
  cases k <;> simp_all [tick_eq, KindBits.get]

/-- Everything an instruction can do to the flags. -/
theorem exec_event (h : exec i s = .next t) :
    t.hw.event = s.hw.event ∨
    (i = .hwTick ∧ ∀ k, s.hw.event.get k = true → t.hw.event.get k = true) ∨
    ∃ k, (i = .resetEvent k ∨ i = ackStep k) ∧ t.hw.event = s.hw.event.set k false := by
  obtain ⟨-, hf | ho⟩ := exec_next h
  · obtain ⟨_, _, _, -, rfl⟩ := hf.enters
    exact .inl rfl
  · have hu := ho.unwritten
    cases i with
    | hwTick =>
      obtain ⟨-, rfl⟩ := ho
      exact .inr (.inl ⟨rfl, fun k hk => tick_event_of_set hk _⟩)
    | resetEvent k =>
      obtain ⟨-, rfl⟩ := ho
      exact .inr (.inr ⟨k, .inl rfl, rfl⟩)
    | sqAckOvf =>
      obtain ⟨-, rfl⟩ := ho
      exact .inr (.inr ⟨.ovf, .inr rfl, rfl⟩)
    | sqAckCmp =>
      obtain ⟨-, rfl⟩ := ho
      exact .inr (.inr ⟨.cmp, .inr rfl, rfl⟩)
    | _ => exact .inl (hu.event nofun nofun nofun nofun)

/-- The flag that an instruction clears is the one it acknowledges. -/
theorem exec_clears_flag {k : Kind} (h : exec i s = .next t) (hs : s.hw.event.get k = true)
    (ht : t.hw.event.get k = false) : i = .resetEvent k ∨ i = ackStep k := by
  obtain he | ⟨-, hk⟩ | ⟨k', hi, he⟩ := exec_event h
  · simp [he, hs] at ht
  · simp [hk k hs] at ht
  · obtain rfl : k' = k := by
      by_contra hne
      simp [he, KindBits.get_set, hne, hs] at ht
    exact hi

/-- The flag that an instruction sets is set by a tick. -/
theorem exec_sets_flag {k : Kind} (h : exec i s = .next t) (hs : s.hw.event.get k = false)
    (ht : t.hw.event.get k = true) : i = .hwTick := by
  obtain he | ⟨hi, -⟩ | ⟨k', -, he⟩ := exec_event h
  · simp [he, hs] at ht
  · exact hi
  · simp [he, KindBits.get_set, hs] at ht

/-- LINE is 1 iff some event is pending and enabled (R41). -/
theorem line_iff (s : State) : s.line = true ↔ ∃ k, s.hw.event.get k = true ∧ s.hw.inten.get k = true := by
  simp only [State.line, Bool.or_eq_true, Bool.and_eq_true]
  constructor
  · rintro (h | h)
    · exact ⟨.ovf, h⟩
    · exact ⟨.cmp, h⟩
  · rintro ⟨_ | _, h⟩
    · exact .inl h
    · exact .inr h

end Sys2Proof.Machine
end

section
/-!
SUPPORT. The invariant under each update of the state (10_state.md R22 to R46): one rule per update, and from them that
every instruction, every line and every step keeps it.
-/

namespace Sys2Proof.Safety

open Sys2Proof.Machine

variable {i : Instr} {s t : State} {r : Byte} {c : Context}

/-! ## Bookkeeping and faults -/

theorem Inv.take (h : Inv s) (rest : List Input) (d : Draw) : Inv (s.take rest d) := { h with }

theorem Inv.takeChoice (h : Inv s) (d : Draw) : Inv (s.takeChoice d) := { h with }

theorem Inv.setPcpResp (h : Inv s) (v : Word) : Inv (s.setPcpResp v) := { h with }

theorem Inv.enterFault {cause : Cause} {op src : Byte} (h : Inv s) (hc : cause ≠ .none) :
    Inv (s.enterFault cause op src) :=
  { h with
    cause := by simp [hc]
    uninit := nofun
    initializing := nofun
    running := nofun }

/-! ## The Period Counter and the peripheral -/

/-- PERIOD follows its ghost through an increment (R43, R110). -/
theorem succ_toNat_of_ghost {p : Word} {m : Nat} (h : p.toNat = m % 2 ^ 32) : (p + 1).toNat = (m + 1) % 2 ^ 32 := by
  simp [BitVec.toNat_add, h]

theorem Inv.increment (h : Inv s) : Inv s.increment :=
  { h with ghostIncs := succ_toNat_of_ghost h.ghostIncs }

/-- The peripheral and the tick ghost may change together, as long as they still agree (R43). -/
theorem Inv.drive {hw : Peripheral} {g : Option Nat} (h : Inv s) (hcounter : hw.counter.toNat < 2 ^ s.params.W)
    (hcc : hw.cc.toNat < 2 ^ s.params.W) (hg : ∀ n, g = some n → hw.counter.toNat = n % 2 ^ s.params.W) :
    Inv { s with hw := hw, tGhost := g } :=
  { h with
    counterWidth := hcounter
    ccWidth := hcc
    ghostTick := hg }

theorem Inv.setHw {hw : Peripheral} (h : Inv s) (hcounter : hw.counter = s.hw.counter)
    (hcc : hw.cc.toNat < 2 ^ s.params.W) : Inv (s.setHw hw) :=
  h.drive (hcounter ▸ h.counterWidth) hcc (hcounter ▸ h.ghostTick)

theorem Inv.setCompare (h : Inv s) (slot : BitVec 4) (data : Word) :
    Inv (s.setHw (s.hw.setCompare s.params s.draw slot data)) :=
  h.setHw (s.hw.setCompare_counter ..) (s.hw.setCompare_cc_lt _ _ _ _ h.ccWidth)

theorem valid_iff {p : Params} : p.valid = true ↔ (2 ≤ p.W ∧ p.W ≤ 32) ∧ 1 ≤ p.nSlots ∧ p.nSlots ≤ 16 := by
  simp [Params.valid, and_assoc]

theorem Inv.tick (h : Inv s) : Inv { s with hw := s.hw.tick s.params, tGhost := s.tGhost.map (· + 1) } := by
  obtain ⟨⟨-, hw⟩, -⟩ := valid_iff.mp h.params
  refine h.drive (trunc_lt _ _) h.ccWidth fun n hn => ?_
  obtain ⟨m, hm, rfl⟩ := Option.map_eq_some_iff.mp hn
  calc (s.hw.tick s.params).counter.toNat
      = (s.hw.counter.toNat + 1) % 2 ^ s.params.W := trunc_succ_toNat hw _
    _ = (m + 1) % 2 ^ s.params.W := by rw [h.ghostTick m hm, Nat.mod_add_mod]

theorem Inv.applyClear (h : Inv s) : Inv { s with hw := s.hw.applyClear, tGhost := some 0 } := by
  refine h.drive (Nat.two_pow_pos _) h.ccWidth fun n hn => ?_
  obtain rfl := Option.some.inj hn
  exact (Nat.zero_mod _).symm

/-! ## The two sequencers -/

theorem Inv.setSeqState {q : SeqState} (h : Inv s) (hv : s.periodValid = true) : Inv (s.setSeqState q) :=
  { h with sequencer := fun _ => hv }

/-- A sequencer that has left IDLE goes on (R170). -/
theorem Inv.sequence {q q' : SeqState} (h : Inv s) (hq : s.seqState = q) (hn : q ≠ .idle) :
    Inv (s.setSeqState q') :=
  h.setSeqState (h.sequencer (hq ▸ hn))

/-- The init sequencer goes on after in.zero (R181). -/
theorem Inv.setInitState {q q' : InitState} (h : Inv s) (hq : s.initState = q) (hn : q ≠ .idle) (hz : q ≠ .zero)
    (hn' : q' ≠ .idle) : Inv (s.setInitState q') := by
  subst hq
  exact { h with
    uninit := fun hl => absurd (h.uninit hl).1 hn
    initializing := fun hl => ⟨hn', (h.initializing hl).2⟩
    running := fun hl => absurd (h.running hl).1 hn
    owner := fun _ => h.owner hn
    zeroed := fun _ _ => h.zeroed hn hz }

/-- in.zero creates the Period Counter (R190). -/
theorem Inv.zero (h : Inv s) (hq : s.initState = .zero) :
    Inv { s with period := 0, periodValid := true, incsGhost := 0, initState := .setcmp } := by
  have hn : s.initState ≠ .idle := by simp [hq]
  exact { h with
    ghostIncs := rfl
    uninit := fun hl => absurd (h.uninit hl).1 hn
    initializing := fun hl => ⟨nofun, (h.initializing hl).2⟩
    running := fun hl => absurd (h.running hl).1 hn
    owner := fun _ => h.owner hn
    sequencer := fun _ => rfl
    zeroed := fun _ _ => rfl }

/-- The init sequencer runs in INITIALIZING alone, unless it has faulted (R24, R28). -/
theorem Inv.lifecycle_of_initState {q : InitState} (h : Inv s) (hl : s.lifecycle ≠ .faulted) (hq : s.initState = q)
    (hn : q ≠ .idle) : s.lifecycle = .initializing := by
  subst hq
  cases hc : s.lifecycle with
  | uninit => exact absurd (h.uninit hc).1 hn
  | initializing => rfl
  | running => exact absurd (h.running hc).1 hn
  | faulted => exact absurd hc hl

/-! ## Contexts -/

/-- The contexts after a change of one. -/
theorem mem_of_modifyContext {f : Context → Context} {c' : Context} (hc : s.context? r = some c)
    (h : c' ∈ (s.modifyContext r f).contexts) : c' ∈ s.contexts ∨ c' = f c := by
  rw [modifyContext_eq_set f hc] at h
  exact List.mem_or_eq_of_mem_set h

/-- The context at an index after a change of one. -/
theorem getElem?_of_modifyContext {f : Context → Context} {c' : Context} {n : Nat} (hc : s.context? r = some c)
    (h : (s.modifyContext r f).contexts[n]? = some c') :
    (n = r.toNat ∧ c' = f c) ∨ (n ≠ r.toNat ∧ s.contexts[n]? = some c') := by
  have hr := (context?_some_iff.mp hc).2
  by_cases hn : r.toNat = n
  · subst hn
    exact .inl ⟨rfl, by simpa [hr, eq_comm] using h⟩
  · exact .inr ⟨Ne.symm hn, by simpa [hn] using h⟩

theorem mem_of_context? (hc : s.context? r = some c) : c ∈ s.contexts :=
  List.mem_of_getElem? (context?_some_iff.mp hc).2

theorem contextsOk_of_modifyContext {f : Context → Context} (h : Inv s) (hc : s.context? r = some c)
    (hok : ContextOk s.params (f c)) : ∀ c' ∈ (s.modifyContext r f).contexts, ContextOk s.params c' := by
  intro c' hm
  obtain hm | rfl := mem_of_modifyContext hc hm
  · exact h.contextsOk c' hm
  · exact hok

/-- A reader's step: its context waits for no INIT, before or after, and holds a first sample in RUNNING only (R31, R141,
R143). -/
theorem Inv.modifyContext {f : Context → Context} (h : Inv s) (hc : s.context? r = some c)
    (hw : c.portState ≠ .initWait) (hw' : (f c).portState ≠ .initWait) (hok : ContextOk s.params (f c))
    (hidle : (f c).portState = .idle ∨ s.lifecycle = .running) : Inv (s.modifyContext r f) :=
  { h with
    readers := by simpa using h.readers
    contextsOk := contextsOk_of_modifyContext h hc hok
    uninit := fun hl => by
      obtain ⟨hq, hv, hp⟩ := h.uninit hl
      refine ⟨hq, hv, fun c' hm => ?_⟩
      obtain hm | rfl := mem_of_modifyContext hc hm
      · exact hp c' hm
      · exact hidle.resolve_right (by simp_all)
    initializing := fun hl => by
      obtain ⟨hq, hp⟩ := h.initializing hl
      refine ⟨hq, fun n c' hn => ?_⟩
      obtain ⟨-, rfl⟩ | ⟨-, hn⟩ := getElem?_of_modifyContext hc hn
      · have hi := hidle.resolve_right (by simp_all)
        simp [hi]
      · exact hp n c' hn
    running := fun hl => by
      obtain ⟨hq, hv, hp⟩ := h.running hl
      refine ⟨hq, hv, fun c' hm => ?_⟩
      obtain hm | rfl := mem_of_modifyContext hc hm
      · exact hp c' hm
      · exact hw'
    owner := fun hq => by
      obtain ⟨o, co, ho, hco, hp⟩ := h.owner hq
      have hne : o ≠ r := by
        rintro rfl
        obtain rfl := Option.some.inj (hco.symm.trans hc)
        exact hw hp
      exact ⟨o, co, ho, (modifyContext_other f hne).trans hco, hp⟩ }

/-- The first sample of a NOW (R141). -/
theorem Inv.sampleP (h : Inv s) (hl : s.lifecycle = .running) (hi : IdleAt s r) :
    Inv (s.modifyContext r fun c => { c with pLatch := some s.period, portState := .haveP }) := by
  obtain ⟨c, hc, hp⟩ := hi
  have hok := h.contextsOk c (mem_of_context? hc)
  exact h.modifyContext hc (by simp [hp]) nofun ⟨fun _ => rfl, hok.sample⟩ (.inr hl)

/-- The second sample of a NOW (R143, R145). -/
theorem Inv.sampleC {p : Word} (h : Inv s) (hc : s.context? r = some c) (hp : c.portState = .haveP) :
    Inv (s.modifyContext r fun c => c.deliverStamp s.params.W p s.sampleCounter) := by
  refine h.modifyContext hc (by simp [hp]) nofun ⟨nofun, fun v hv => ?_⟩ (.inl rfl)
  obtain rfl := Option.some.inj hv
  rw [sampleCounter_eq]
  exact trunc_lt _ _

/-- The acceptance of the first INIT (R180). -/
theorem Inv.acceptInit (h : Inv s) (hl : s.lifecycle = .uninit) (hi : IdleAt s r) :
    Inv { s.modifyContext r (fun c => { c with portState := .initWait }) with
      lifecycle := .initializing, initOwner := some r, initState := .zero } := by
  obtain ⟨c, hc, hp⟩ := hi
  obtain ⟨-, hv, hidle⟩ := h.uninit hl
  have hok := h.contextsOk c (mem_of_context? hc)
  exact { h with
    readers := by simpa using h.readers
    contextsOk := contextsOk_of_modifyContext h hc ⟨nofun, hok.sample⟩
    cause := by simp [h.cause, hl]
    uninit := nofun
    initializing := fun _ => by
      refine ⟨nofun, fun n c' hn => ?_⟩
      obtain ⟨rfl, rfl⟩ | ⟨-, hn⟩ := getElem?_of_modifyContext hc hn
      · exact ⟨nofun, fun _ => ⟨r, rfl, rfl⟩⟩
      · simp [hidle c' (List.mem_of_getElem? hn)]
    running := nofun
    owner := fun _ => ⟨r, _, rfl, (modifyContext_same _).trans (congrArg _ hc), rfl⟩
    zeroed := fun _ hz => absurd rfl hz }

/-- in.en_cmp completes the owner's INIT (R196): the owner was the only context to wait for it. -/
theorem Inv.complete {o : Byte} (h : Inv s) (hl : s.lifecycle ≠ .faulted) (hq : s.initState = .enCmp)
    (ho : s.initOwner = some o) (hc : s.context? o = some c) :
    Inv { ((s.setHw (s.hw.enableInterrupt .cmp)).setInitState .idle).modifyContext o
        (fun c => { c with portState := .idle, response := some .done }) with
      lifecycle := .running } := by
  obtain ⟨-, hp⟩ := h.initializing (h.lifecycle_of_initState hl hq nofun)
  have hok := h.contextsOk c (mem_of_context? hc)
  exact { h with
    readers := by simpa using h.readers
    contextsOk := contextsOk_of_modifyContext (s := s) h hc ⟨nofun, hok.sample⟩
    cause := by simp [h.cause, hl]
    uninit := nofun
    initializing := nofun
    running := fun _ => by
      refine ⟨rfl, h.zeroed (by simp [hq]) (by simp [hq]), fun c' hm hw => ?_⟩
      obtain ⟨n, hn⟩ := List.getElem?_of_mem hm
      obtain ⟨-, rfl⟩ | ⟨hne, hn⟩ := getElem?_of_modifyContext hc hn
      · cases hw
      · obtain ⟨o', ho', rfl⟩ := (hp n c' hn).2 hw
        exact hne (congrArg BitVec.toNat (Option.some.inj (ho'.symm.trans ho)))
    owner := nofun
    zeroed := nofun }

/-! ## Steps -/

/-- The block's reset, whatever state the peripheral is found in (R270). -/
theorem Inv.applyReset (h : Inv s) (d : ResetDraw) : Inv (s.applyReset d) := by
  have hreset : ∀ c ∈ (s.applyReset d).contexts, c = Context.atReset := by simp
  exact {
    params := h.params
    readers := by simpa using h.readers
    counterWidth := trunc_lt _ _
    ccWidth := trunc_lt _ _
    contextsOk := fun c hc => by rw [hreset c hc]; exact ⟨nofun, nofun⟩
    ghostTick := nofun
    ghostIncs := rfl
    cause := by simp
    uninit := fun _ => ⟨rfl, rfl, fun c hc => by rw [hreset c hc]; rfl⟩
    initializing := nofun
    running := nofun
    owner := fun hq => absurd rfl hq
    sequencer := fun hq => absurd rfl hq
    zeroed := fun hq => absurd rfl hq }

theorem inv_of_ownEffect (h : Inv s) (hl : s.lifecycle ≠ .faulted) (ho : OwnEffect s t i) : Inv t := by
  cases i with
  | init _ => obtain ⟨-, hu, hi, rfl⟩ := ho; exact h.acceptInit hu hi
  | now _ | rdSampleP _ => obtain ⟨-, hr, hi, rfl⟩ := ho; exact h.sampleP hr hi
  | rdSampleC _ => obtain ⟨_, _, hc, hp, -, rfl⟩ := ho; exact h.sampleC hc hp
  | irqService _ => obtain ⟨-, hv, -, rfl⟩ := ho; exact h.setSeqState hv
  | sqEnter => obtain ⟨hv, -, rfl⟩ := ho; exact h.setSeqState hv
  | sqChkOvf | sqChkCmp | sqExit => obtain ⟨hq, rfl⟩ := ho; exact h.sequence hq nofun
  | sqAckOvf | sqAckCmp => obtain ⟨hq, rfl⟩ := ho; exact .sequence (h.setHw rfl h.ccWidth) hq nofun
  | sqIncOvf | sqIncCmp => obtain ⟨hq, rfl⟩ := ho; exact h.increment.sequence hq nofun
  | inZero => obtain ⟨hq, rfl⟩ := ho; exact h.zero hq
  | inSetcmp =>
    obtain ⟨hq, -, rfl⟩ := ho
    exact .setInitState (h.setCompare _ _) hq nofun nofun nofun
  | inClear | inStart | inEnOvf =>
    obtain ⟨hq, rfl⟩ := ho
    exact .setInitState (h.setHw rfl h.ccWidth) hq nofun nofun nofun
  | inPoll =>
    obtain ⟨hq, rfl⟩ := ho
    exact h.setInitState hq nofun nofun (by split <;> nofun)
  | inEnCmp => obtain ⟨hq, _, _, hown, hc, rfl⟩ := ho; exact h.complete hl hq hown hc
  | hwTick => obtain ⟨-, rfl⟩ := ho; exact h.tick
  | hwClearApply => obtain ⟨-, rfl⟩ := ho; exact h.applyClear
  | getCounter | isEventTriggered _ => obtain ⟨-, rfl⟩ := ho; exact h.setPcpResp _
  | setCompare _ _ =>
    obtain ⟨-, rfl⟩ := ho
    exact (h.setCompare _ _).setPcpResp _
  | clearCounter | enableCounter | enableInterrupt _ | resetEvent _ =>
    obtain ⟨-, rfl⟩ := ho
    exact h.setHw rfl h.ccWidth

theorem Inv.exec (h : Inv s) (hx : Machine.exec i s = .next t) : Inv t := by
  obtain ⟨hl, hf | ho⟩ := exec_next hx
  · obtain ⟨_, _, _, hc, rfl⟩ := hf.enters
    exact h.enterFault hc
  · exact inv_of_ownEffect h hl ho

theorem Inv.runLine {l : Line} (h : Inv s) (hx : Machine.runLine l s = .next t) : Inv t := by
  obtain ⟨i, -, hx⟩ | ⟨_, _, -, -, rfl⟩ := runLine_next hx
  · exact h.exec hx
  · exact .enterFault h nofun

theorem Inv.runChoice {c : Choice} (h : Inv s) (hx : Machine.runChoice c s = .next t) : Inv t := by
  obtain hl | rfl := runChoice_next hx
  · exact (h.takeChoice c.draw).runLine hl
  · exact h.takeChoice c.draw

theorem Inv.step (h : Inv s) (hx : Machine.step s = .next t) : Inv t := by
  obtain ⟨d, rest, -, rfl⟩ | ⟨l, d, rest, -, hl⟩ | ⟨a, m, d, rest, l, ls, -, -, hl⟩ | ⟨-, hc⟩ := step_next hx
  · exact (h.take rest s.draw).applyReset d
  · exact (h.take rest d).runLine hl
  · exact (h.take _ d).runLine hl
  · exact h.runChoice hc

/-! ## Registers that hold no value (R46) -/

theorem not_faultEffect_rdSampleC (h : Inv s) : ¬FaultEffect s t (.rdSampleC r) := by
  rintro ⟨c, hc, hp, hn, -⟩
  have hv := (h.contextsOk c (mem_of_context? hc)).latched hp
  simp [hn] at hv

theorem not_faultEffect_inEnCmp (h : Inv s) : ¬FaultEffect s t .inEnCmp := by
  rintro ⟨hq, hn, -⟩
  obtain ⟨o, -, ho, -⟩ := h.owner (by simp [hq])
  simp [hn] at ho

theorem initOwner_of_faultEffect_inSetcmp (h : Inv s) (hf : FaultEffect s t .inSetcmp) :
    s.initOwner = some t.faultSrc := by
  obtain ⟨hq, -, rfl⟩ := hf
  obtain ⟨o, -, ho, -⟩ := h.owner (by simp [hq])
  simp [State.faultOwner, ho]

theorem execRdSampleC_of_no_pLatch (hl : s.lifecycle ≠ .faulted) (hc : s.context? r = some c)
    (hp : c.portState = .haveP) (hv : c.pLatch = none) : execRdSampleC r s = .next (s.enterModelError 0x81 r) := by
  simp [execRdSampleC, hc, hp, hl, hv]

theorem execInEnCmp_of_no_initOwner (hl : s.lifecycle ≠ .faulted) (hq : s.initState = .enCmp)
    (ho : s.initOwner = none) : execInEnCmp s = .next (s.enterModelError 0xA7 s.draw.errorSrc) := by
  simp [execInEnCmp, hl, hq, ho, State.faultOwner]

theorem execInSetcmp_of_fails (hl : s.lifecycle ≠ .faulted) (hq : s.initState = .setcmp)
    (hf : s.compareFails = true) : execInSetcmp s = .next (s.enterFault .initFailed 0xA2 s.faultOwner) :=
  initStep_next_iff.mpr ⟨hq, hl, by simp [hf]⟩

end Sys2Proof.Safety
end

section
/-!
SUPPORT. The account of events (40_period_counter.md R114 to R119; 70_reset_and_hazards.md R282): an event falls on every
H-th tick, each step of the interrupt sequencer moves an event on by one stage, and no other agent touches the account.
-/

namespace Sys2Proof.Safety

open Sys2Proof.Machine

variable {i : Instr} {s t : State} {n : Nat}

/-! ## Events fall on the half-cycles -/

/-- The half of the cycle is the parity of the half-cycle index. -/
theorem mod_two_mul_eq (n H : Nat) : n % (2 * H) = n % H + H * (n / H % 2) := by
  rw [Nat.mul_comm, Nat.mod_mul]

/-- The multiples of `H` are the start and the middle of a cycle of `2 * H`. -/
theorem dvd_iff_mod_two_mul {H : Nat} (hpos : 0 < H) (m : Nat) : H ∣ m ↔ m % (2 * H) = 0 ∨ m % (2 * H) = H := by
  have hlt := Nat.mod_lt m hpos
  rw [Nat.dvd_iff_mod_eq_zero, mod_two_mul_eq]
  rcases Nat.mod_two_eq_zero_or_one (m / H) with h | h <;> rw [h] <;> omega

theorem mod_eq_pred_iff {C : Nat} (hC : 0 < C) (n : Nat) : n % C = C - 1 ↔ (n + 1) % C = 0 := by
  have hlt := Nat.mod_lt n hC
  rw [← Nat.mod_add_mod]
  by_cases h : n % C + 1 = C
  · rw [h, Nat.mod_self]
    omega
  · rw [Nat.mod_eq_of_lt (show n % C + 1 < C by omega)]
    omega

/-- A tick of a counter that holds `n` modulo the cycle overflows iff it ends a cycle (R114). -/
theorem overflows_iff_mod {p : Params} {v : Word} (hp : p.valid = true) (hv : v.toNat = n % 2 ^ p.W) :
    overflows p v = true ↔ (n + 1) % 2 ^ p.W = 0 := by
  obtain ⟨⟨-, hw⟩, -⟩ := valid_iff.mp hp
  rw [overflows_iff hw, hv, mod_eq_pred_iff (Nat.two_pow_pos _)]

/-- It matches CC = H iff it ends the first half of a cycle (R114). -/
theorem matchesCompare_iff_mod {p : Params} {h : Peripheral} (hp : p.valid = true) (hv : h.counter.toNat = n % 2 ^ p.W)
    (hcc : h.cc = half p.W) :
    matchesCompare h (trunc p.W (h.counter + 1)) = true ↔ (n + 1) % 2 ^ p.W = halfTicks p.W := by
  obtain ⟨⟨-, hw⟩, -⟩ := valid_iff.mp hp
  rw [matchesCompare, beq_iff_eq, hcc, BitVec.toNat_eq, trunc_succ_toNat hw, half_toNat hw, hv, Nat.mod_add_mod]

/-- Two flags of which at most one is set count as the number of them that are. -/
theorem toNat_or_of_not_both {e o : Bool} (h : o = true → e = false) : (e || o).toNat = e.toNat + o.toNat := by
  cases o
  · simp
  · simp [h rfl]

/-- A tick raises one event iff it ends a half-cycle, and never two (R8, R114). -/
theorem events_of_tick {p : Params} {h : Peripheral} (hp : p.valid = true) (hv : h.counter.toNat = n % 2 ^ p.W)
    (hcc : h.cc = half p.W) :
    (overflows p h.counter).toNat + (matchesCompare h (trunc p.W (h.counter + 1))).toNat =
      if halfTicks p.W ∣ n + 1 then 1 else 0 := by
  obtain ⟨⟨hw, -⟩, -⟩ := valid_iff.mp hp
  have hpos := halfTicks_pos p.W
  have ho := overflows_iff_mod hp hv
  have hm := matchesCompare_iff_mod hp hv hcc
  have hone : matchesCompare h (trunc p.W (h.counter + 1)) = true → overflows p h.counter = false := by
    rw [← Bool.not_eq_true, hm, ho]
    omega
  have hd : halfTicks p.W ∣ n + 1 ↔
      (overflows p h.counter || matchesCompare h (trunc p.W (h.counter + 1))) = true := by
    rw [dvd_iff_mod_two_mul hpos, ← two_pow_eq_halves (by omega), Bool.or_eq_true, ho, hm]
  rw [← toNat_or_of_not_both hone, Bool.toNat, Bool.cond_eq_ite]
  simp only [hd]

/-! ## The account under each update -/

theorem Accounted.redraw (h : Accounted s n) (d : Draw) : Accounted { s with draw := d } n := { h with }

theorem Accounted.modifyContext (h : Accounted s n) (r : Byte) (f : Context → Context) :
    Accounted (s.modifyContext r f) n := { h with }

theorem Accounted.enterFault (h : Accounted s n) (cause : Cause) (op src : Byte) :
    Accounted (s.enterFault cause op src) n :=
  { h with begun := nofun }

/-- A step of the sequencer that counts nothing keeps the number of uncounted events. -/
theorem Accounted.sequence {e : KindBits} {q : SeqState} (h : Accounted s n) (hovf : q = .ackOvf → e.ovf = true)
    (hcmp : q = .ackCmp → e.cmp = true)
    (hcount : uncounted ((s.setHw { s.hw with event := e }).setSeqState q) = uncounted s) :
    Accounted ((s.setHw { s.hw with event := e }).setSeqState q) n :=
  { h with
    checkedOvf := hovf
    checkedCmp := hcmp
    account := by rw [hcount]; exact h.account }

/-- An increment moves one event from the uncounted to the counted. -/
theorem Accounted.count {q : SeqState} (h : Accounted s n) (hovf : q ≠ .ackOvf) (hcmp : q ≠ .ackCmp)
    (hcount : uncounted s = uncounted (s.setSeqState q) + 1) : Accounted (s.increment.setSeqState q) n :=
  { h with
    checkedOvf := fun hq => absurd hq hovf
    checkedCmp := fun hq => absurd hq hcmp
    period := succ_toNat_of_ghost h.period
    account := by
      calc s.incsGhost + 1 + uncounted (s.setSeqState q)
          = s.incsGhost + uncounted s := by omega
        _ = n / halfTicks s.params.W := h.account }

/-- The entry of a service leaves the account (R170). -/
theorem Accounted.enter (h : Accounted s n) (hq : s.seqState = .idle) : Accounted (s.setSeqState .chkOvf) n :=
  h.sequence (e := s.hw.event) nofun nofun (by simp [uncounted, hq])

theorem uncounted_tick (hlatch : ∀ k, mayLatch s.params s.hw k = true) (hlost : LosesNoEvent .hwTick s)
    (g : Option Nat) :
    uncounted { s with hw := s.hw.tick s.params, tGhost := g } = uncounted s +
      ((overflows s.params s.hw.counter).toNat +
        (matchesCompare s.hw (trunc s.params.W (s.hw.counter + 1))).toNat) := by
  obtain ⟨hovf, hcmp⟩ := hlost rfl
  simp only [uncounted, tick_eq, hlatch, Bool.and_true, toNat_or_of_not_both hovf, toNat_or_of_not_both hcmp]
  omega

/-- A tick that loses no event enters the one it raises into the account (R119). -/
theorem Accounted.tick (h : Accounted s n) (hlost : LosesNoEvent .hwTick s) :
    Accounted { s with hw := s.hw.tick s.params, tGhost := s.tGhost.map (· + 1) } (n + 1) := by
  obtain ⟨⟨-, hw⟩, -⟩ := valid_iff.mp h.params
  exact { h with
    ticks := by simp [h.ticks]
    counter := by
      calc (s.hw.tick s.params).counter.toNat
          = (s.hw.counter.toNat + 1) % 2 ^ s.params.W := trunc_succ_toNat hw _
        _ = (n + 1) % 2 ^ s.params.W := by rw [h.counter, Nat.mod_add_mod]
    checkedOvf := fun hq => tick_event_of_set (k := .ovf) (h.checkedOvf hq) _
    checkedCmp := fun hq => tick_event_of_set (k := .cmp) (h.checkedCmp hq) _
    account := by
      rw [uncounted_tick h.latching hlost, events_of_tick h.params h.counter h.armed, Nat.succ_div, ← h.account]
      exact (Nat.add_assoc _ _ _).symm }

/-! ## Steps -/

theorem accounted_of_ownEffect (h : Accounted s n) (ha : isAgentStep i = true) (hlost : LosesNoEvent i s)
    (ho : OwnEffect s t i) : Accounted t (if i = .hwTick then n + 1 else n) := by
  cases i with
  | hwTick => obtain ⟨-, rfl⟩ := ho; exact h.tick hlost
  | sqEnter => obtain ⟨-, hq, rfl⟩ := ho; exact h.enter hq
  | irqService _ => obtain ⟨-, -, hq, rfl⟩ := ho; exact h.enter hq
  | sqChkOvf =>
    obtain ⟨hq, rfl⟩ := ho
    refine h.sequence (e := s.hw.event) ?_ ?_ ?_
    all_goals cases hf : s.hw.event.ovf <;> simp [uncounted, KindBits.get, hq, hf]
  | sqChkCmp =>
    obtain ⟨hq, rfl⟩ := ho
    refine h.sequence (e := s.hw.event) ?_ ?_ ?_
    all_goals cases hf : s.hw.event.cmp <;> simp [uncounted, KindBits.get, hq, hf]
  | sqAckOvf =>
    obtain ⟨hq, rfl⟩ := ho
    exact h.sequence (e := s.hw.event.set .ovf false) nofun nofun
      (by simp [uncounted, KindBits.set, hq, h.checkedOvf hq]; omega)
  | sqAckCmp =>
    obtain ⟨hq, rfl⟩ := ho
    exact h.sequence (e := s.hw.event.set .cmp false) nofun nofun
      (by simp [uncounted, KindBits.set, hq, h.checkedCmp hq])
  | sqIncOvf => obtain ⟨hq, rfl⟩ := ho; exact h.count nofun nofun (by simp [uncounted, hq])
  | sqIncCmp => obtain ⟨hq, rfl⟩ := ho; exact h.count nofun nofun (by simp [uncounted, hq])
  | sqExit => obtain ⟨hq, rfl⟩ := ho; exact h.sequence (e := s.hw.event) nofun nofun (by simp [uncounted, hq])
  | init _ => obtain ⟨-, hu, -⟩ := ho; exact absurd hu h.begun
  | now _ | rdSampleP _ => obtain ⟨-, -, -, rfl⟩ := ho; exact h.modifyContext _ _
  | rdSampleC _ => obtain ⟨_, _, -, -, -, rfl⟩ := ho; exact h.modifyContext _ _
  | hwClearApply => obtain ⟨hq, -⟩ := ho; simp [h.settled] at hq
  | inZero | inSetcmp | inClear | inStart | inPoll | inEnOvf | inEnCmp =>
    obtain ⟨hq, -⟩ := ho
    simp [h.initDone] at hq
  | _ => cases ha

theorem Accounted.takes (h : Accounted s n) (ht : Takes i s t) (hlost : LosesNoEvent i s) :
    Accounted t (if i = .hwTick then n + 1 else n) := by
  obtain ⟨ha, d, hx⟩ := ht
  obtain ⟨-, hf | ho⟩ := exec_next hx
  · have hi : i ≠ .hwTick := by rintro rfl; exact hf
    obtain ⟨_, _, _, -, rfl⟩ := hf.enters
    rw [if_neg hi]
    exact (h.redraw d).enterFault _ _ _
  · exact accounted_of_ownEffect (h.redraw d) ha hlost ho

/-! ## Quiescence -/

theorem Accounted.incsGhost_of_quiescent (h : Accounted s n) (hq : Quiescent s) :
    s.incsGhost = n / halfTicks s.params.W := by
  obtain ⟨he, hs⟩ := hq
  have hu : uncounted s = 0 := by rcases hs with hs | hs <;> simp [uncounted, he, hs]
  rw [← h.account, hu, Nat.add_zero]

/-- Parity is PERIOD's low bit (R42). -/
theorem parity_eq (s : State) : s.parity = decide (s.period.toNat % 2 = 1) := by
  simp [State.parity, BitVec.getLsbD]

/-- With no wrap, parity tells the half of the cycle in which `n` lies. -/
theorem Accounted.mod_cycle_of_quiescent (h : Accounted s n) (hq : Quiescent s) (hwrap : s.incsGhost < 2 ^ 32) :
    s.hw.counter.toNat = n % halfTicks s.params.W + halfTicks s.params.W * s.parity.toNat := by
  obtain ⟨⟨hw, -⟩, -⟩ := valid_iff.mp h.params
  have hp : s.parity.toNat = n / halfTicks s.params.W % 2 := by
    rw [parity_eq, h.period, Nat.mod_eq_of_lt hwrap, h.incsGhost_of_quiescent hq]
    rcases Nat.mod_two_eq_zero_or_one (n / halfTicks s.params.W) with hn | hn <;> simp [hn]
  rw [h.counter, two_pow_eq_halves (by omega), mod_two_mul_eq, hp]

end Sys2Proof.Safety
end

section
/-! PROOFS. The statements of the state (10_state.md): who writes a register, the invariant, and the account of events. -/

namespace Sys2Proof.Safety

open Sys2Proof.Machine

/-- Settles O51: each update of the state keeps the invariant, and a step is made of those updates. -/
theorem everyStepKeepsTheInvariant : Obligations.EveryStepKeepsTheInvariant :=
  fun _ _ h hx => h.step hx

/-- Settles O58: each step of the sequencer moves an event on by one stage, and a tick enters the one it raises. -/
theorem everyEventIsAccountedFor : Obligations.EveryEventIsAccountedFor :=
  fun _ _ _ _ h ht hlost => h.takes ht hlost

/-- Settles O52: the invariant gives each reader its value; without it, the draw's cause is the one recorded. -/
theorem noStepReadsARegisterWithoutValue : Obligations.NoStepReadsARegisterWithoutValue := by
  refine ⟨?_, ?_, ?_, ?_⟩
  · intro s t i hi hx ht
    obtain ⟨hl, hf | ho⟩ := exec_next hx
    · refine ⟨?_, ?_, ?_⟩
      · rintro r rfl
        exact not_faultEffect_rdSampleC hi hf
      · rintro rfl
        exact not_faultEffect_inEnCmp hi hf
      · rintro rfl
        exact initOwner_of_faultEffect_inSetcmp hi hf
    · exact absurd ht (ho.live hl)
  · intro s r c hl hc hp hv k hk
    obtain ⟨n, rfl⟩ := ofDraw_surjective hk
    refine ⟨n, ?_⟩
    rintro d rfl
    exact execRdSampleC_of_no_pLatch (s := { s with draw := d }) hl hc hp hv
  · intro s hl ho hq k hk
    obtain ⟨n, rfl⟩ := ofDraw_surjective hk
    refine ⟨n, ?_⟩
    rintro d rfl
    exact execInEnCmp_of_no_initOwner (s := { s with draw := d }) hl hq ho
  · intro s hl ho hq hfail
    have hf : s.compareFails = true := by
      rcases hfail with h | h <;> simp [compareFails_eq, h]
    exact (execInSetcmp_of_fails hl hq hf).trans (by simp [enterFault_eq, State.faultOwner, ho])

/-- Settles O53: an instruction's own effect leaves PERIOD but in its three writers, and a fault entry leaves it always. -/
theorem onlyZeroAndIncrementWritePeriod : Obligations.OnlyZeroAndIncrementWritePeriod := by
  intro i s t hx
  obtain ⟨-, hf | ho⟩ := exec_next hx
  · obtain ⟨_, _, _, -, rfl⟩ := hf.enters
    exact .inl rfl
  · have hu := ho.unwritten
    cases i with
    | inZero => obtain ⟨-, rfl⟩ := ho; exact .inr (.inl ⟨rfl, rfl⟩)
    | sqIncOvf => obtain ⟨-, rfl⟩ := ho; exact .inr (.inr ⟨.inl rfl, rfl⟩)
    | sqIncCmp => obtain ⟨-, rfl⟩ := ho; exact .inr (.inr ⟨.inr rfl, rfl⟩)
    | _ => exact .inl (hu.period nofun nofun nofun)

/-- Settles O54: the writers are INIT's acceptance, in.en_cmp, which the invariant finds in INITIALIZING, and a fault. -/
theorem lifecycleMovesOnlyForward : Obligations.LifecycleMovesOnlyForward := by
  intro i s t hi hx
  obtain ⟨hl, hf | ho⟩ := exec_next hx
  · obtain ⟨_, _, _, -, rfl⟩ := hf.enters
    exact .inr (.inr (.inr ⟨hl, rfl⟩))
  · have hu := ho.unwritten
    cases i with
    | init r => obtain ⟨-, hs, -, rfl⟩ := ho; exact .inr (.inl ⟨hs, rfl, r, rfl⟩)
    | inEnCmp =>
      obtain ⟨hq, _, _, -, -, rfl⟩ := ho
      exact .inr (.inr (.inl ⟨hi.lifecycle_of_initState hl hq nofun, rfl, rfl⟩))
    | _ => exact .inl (hu.lifecycle nofun nofun)

/-- Settles O56: an instruction leaves the flags, ticks, or acknowledges one kind. -/
theorem flagsAreSetByTicksAndClearedByAcknowledgment :
    Obligations.FlagsAreSetByTicksAndClearedByAcknowledgment := by
  intro i s t k hx
  refine ⟨exec_sets_flag hx, fun hs ht => ?_⟩
  have hi := exec_clears_flag hx hs ht
  cases k with
  | ovf => exact hi
  | cmp => exact hi

/-- Settles O57: the enable of a pending event stays, and its flag is cleared by an acknowledgment alone. -/
theorem lineStaysHighUntilAcknowledged : Obligations.LineStaysHighUntilAcknowledged := by
  refine ⟨line_iff, fun i s t hx hline => ?_⟩
  obtain ⟨k, hflag, hen⟩ := (line_iff s).mp hline
  cases ht : t.hw.event.get k with
  | true => exact .inl ((line_iff t).mpr ⟨k, ht, (exec_upholds hx).inten k hen⟩)
  | false =>
    rcases exec_clears_flag hx hflag ht with rfl | rfl
    · exact .inr (.inr (.inr ⟨k, rfl⟩))
    · cases k with
      | ovf => exact .inr (.inl rfl)
      | cmp => exact .inr (.inr (.inl rfl))

/-- Settles O59: the counter is the remainder of a half-cycle, with H added when the parity is odd. -/
theorem quiescentParityGivesTheHalf : Obligations.QuiescentParityGivesTheHalf := by
  intro s n h hq hwrap
  obtain ⟨⟨hw, -⟩, -⟩ := valid_iff.mp h.params
  have hlt := Nat.mod_lt n (halfTicks_pos s.params.W)
  have hcounter := h.mod_cycle_of_quiescent hq hwrap
  refine ⟨h.incsGhost_of_quiescent hq, fun heven => ?_, fun hodd => ?_⟩
  · simp only [heven, Bool.toNat_false] at hcounter
    omega
  · simp only [hodd, Bool.toNat_true] at hcounter
    rw [two_pow_eq_halves (by omega)]
    omega

end Sys2Proof.Safety
end

section
/-!
SUPPORT. The commands by themselves (43_peripheral_contract.md R210 to R216): what a command line leaves, and its effect
taken twice.
-/

namespace Sys2Proof.Machine

open Sys2Proof.Safety

variable {i : Instr} {s t : State}

/-- A command line leaves exactly its own effect: it has no fault entry. -/
theorem exec_command_iff (hi : isAgentStep i = false) :
    exec i s = .next t ↔ s.lifecycle ≠ .faulted ∧ OwnEffect s t i := by
  cases i with
  | getCounter | setCompare _ _ | clearCounter | enableCounter | enableInterrupt _ | isEventTriggered _ | resetEvent _ =>
    exact guarded_next_iff.trans and_left_comm
  | _ => cases hi

@[simp] theorem State.setHw_setHw (h h' : Peripheral) : (s.setHw h).setHw h' = s.setHw h' := rfl

@[simp] theorem State.setPcpResp_setPcpResp (v v' : Word) : (s.setPcpResp v).setPcpResp v' = s.setPcpResp v' := rfl

@[simp] theorem State.setPcpResp_setHw (v : Word) (h : Peripheral) :
    (s.setPcpResp v).setHw h = (s.setHw h).setPcpResp v := rfl

@[simp] theorem KindBits.set_set (b : KindBits) (k : Kind) (v : Bool) : (b.set k v).set k v = b.set k v := by
  cases k <;> rfl

@[simp] theorem Peripheral.enableInterrupt_twice (h : Peripheral) (k : Kind) :
    (h.enableInterrupt k).enableInterrupt k = h.enableInterrupt k := by
  simp [Peripheral.enableInterrupt]

@[simp] theorem Peripheral.resetEvent_twice (h : Peripheral) (k : Kind) :
    (h.resetEvent k).resetEvent k = h.resetEvent k := by
  simp [Peripheral.resetEvent]

/-- The peripheral decides on SET_COMPARE by the parameters, the draw and the slot alone (R211), hence alike both times. -/
@[simp] theorem Peripheral.setCompare_twice (h : Peripheral) (p : Params) (d : Draw) (slot : BitVec 4) (data : Word) :
    (h.setCompare p d slot data).setCompare p d slot data = h.setCompare p d slot data := by
  cases ha : acceptsCompare p d slot && slot == p.cmpSlot <;> simp [Peripheral.setCompare, ha]

/-- The effect of a command on the state that it leaves is that state (R64). -/
theorem OwnEffect.twice (hi : isAgentStep i = false) (h : OwnEffect s t i) : OwnEffect t t i := by
  cases i with
  | getCounter | isEventTriggered _ | clearCounter | enableCounter =>
    obtain ⟨hb, rfl⟩ := h
    exact ⟨hb, rfl⟩
  | setCompare _ _ | enableInterrupt _ | resetEvent _ =>
    obtain ⟨hb, rfl⟩ := h
    exact ⟨hb, by simp⟩
  | _ => cases hi

end Sys2Proof.Machine
end

section
/-! PROOFS. The statements of the memory (20_memory.md): the commands taken twice. -/

namespace Sys2Proof.Machine

/-- Settles O39: a command leaves the block live, and its effect on the state that it leaves is that state. -/
theorem commandsAreIdempotent : Obligations.CommandsAreIdempotent := by
  intro s t i hi hx
  obtain ⟨hl, ho⟩ := (exec_command_iff hi).mp hx
  exact (exec_command_iff hi).mpr ⟨ho.live hl, ho.twice hi⟩

end Sys2Proof.Machine
end

section
/-!
SUPPORT. What the decoder accepts (30_encoding.md R85, R87, R92): a port's decoder answers the instruction that its
table gives the word, and refuses the words that the table does not list.
-/

namespace Sys2Proof

variable {src ctx w : Byte} {data : Word} {i : Instr}

/-! ## Step codes -/

/-- The nineteen step codes (R92). -/
def stepWords : List Nat :=
  [0x80, 0x81, 0x90, 0x91, 0x92, 0x93, 0x94, 0x95, 0x96, 0x97, 0xA1, 0xA2, 0xA3, 0xA4, 0xA5, 0xA6, 0xA7, 0xB0, 0xB1]

theorem stepOf_isSome_iff : (stepOf ctx w).isSome = true ↔ w.toNat ∈ stepWords := by
  constructor
  · intro h
    by_contra hw
    simp [stepOf_eq_none hw] at h
  · have hall : stepWords.all (fun n => (stepOf ctx (BitVec.ofNat 8 n)).isSome) = true := rfl
    simpa using List.all_eq_true.mp hall w.toNat

/-- Among the step codes, UNIT 8 is the reader's, with its two steps (R91, R92). -/
theorem hiNibble_eq_reader_iff (h : w.toNat ∈ stepWords) : hiNibble w = 0x8 ↔ w.toNat = 0x80 ∨ w.toNat = 0x81 := by
  have hall : ∀ n ∈ stepWords, n / 16 = 8 ↔ n = 0x80 ∨ n = 0x81 := by decide
  rw [← hall _ h, BitVec.toNat_eq, hiNibble_toNat]
  rfl

theorem decodeMop_eq_instr_iff :
    decodeMop ctx w = .instr i ↔ stepOf ctx w = some i ∧ (hiNibble w = 0x8 ∨ ctx = 0) := by
  cases hs : stepOf ctx w with
  | none => simp [decodeMop, hs]
  | some j =>
    simp only [decodeMop, hs]
    split <;> simp_all

theorem decodeMop_eq_reserved_iff : decodeMop ctx w = .rejected (.reservedStep w) ↔ stepOf ctx w = none := by
  unfold decodeMop
  split
  · simp [*]
  · split <;> simp [*]

/-! ## Command words -/

/-- The command words but those of SET_COMPARE (R87). -/
def commandWords : List Nat := [0x10, 0x30, 0x40, 0x50, 0x51, 0x60, 0x61, 0x70, 0x71]

/-- OP 2 is SET_COMPARE, with its sixteen slots (R86, R87). -/
theorem hiNibble_eq_compare_iff : hiNibble w = 2 ↔ 0x20 ≤ w.toNat ∧ w.toNat ≤ 0x2F := by
  rw [BitVec.toNat_eq, hiNibble_toNat]
  change w.toNat / 16 = 2 ↔ _
  omega

theorem commandOf_of_compare (h : hiNibble w = 2) : commandOf w data = some (.setCompare (loNibble w) data) := by
  simp [commandOf, h]

theorem commandOf_isSome_iff :
    (commandOf w data).isSome = true ↔ (0x20 ≤ w.toNat ∧ w.toNat ≤ 0x2F) ∨ w.toNat ∈ commandWords := by
  constructor
  · intro h
    by_contra hw
    obtain ⟨hcompare, hw⟩ := not_or.mp hw
    simp [commandOf_eq_none hcompare hw] at h
  · rintro (h | h)
    · simp [commandOf_of_compare (hiNibble_eq_compare_iff.mpr h)]
    · have hall : commandWords.all (fun n => (commandOf (BitVec.ofNat 8 n) data).isSome) = true := rfl
      simpa using List.all_eq_true.mp hall w.toNat h

theorem decodePcp_eq_instr_iff :
    decodePcp w data = .instr i ↔ commandOf w data = some i ∧ (hiNibble w = 2 ∨ data = 0) := by
  cases hs : commandOf w data with
  | none => simp [decodePcp, hs]
  | some j =>
    simp only [decodePcp, hs]
    split <;> simp_all

theorem decodePcp_eq_reserved_iff : decodePcp w data = .rejected (.reservedCommand w) ↔ commandOf w data = none := by
  unfold decodePcp
  split
  · simp [*]
  · split <;> simp [*]

/-! ## Request words -/

/-- A line is accepted iff it is some instruction's encoding. -/
theorem decode_accepts_iff {l : Line} : (∃ i, decode l = .instr i) ↔ ∃ i, encode i = l := by
  constructor
  · exact fun ⟨i, hi⟩ => ⟨i, encode_of_decode hi⟩
  · rintro ⟨i, rfl⟩
    exact ⟨i, decode_encode i⟩

/-- The requests are the lines of a request port that encode an operation (R82 to R84). -/
theorem exists_encode_eq_urp_iff : (∃ i, encode i = .urp src w) ↔ w.toNat ∈ [0x10, 0x20, 0x30] := by
  constructor
  · rintro ⟨i, hi⟩
    cases i with
    | init _ | now _ | irqService _ => cases hi; decide
    | _ => cases hi
  · intro h
    simp only [List.mem_cons, List.not_mem_nil, or_false] at h
    rcases h with h | h | h
    · exact ⟨.init src, by simp [encode, BitVec.toNat_eq, h]⟩
    · exact ⟨.now src, by simp [encode, BitVec.toNat_eq, h]⟩
    · exact ⟨.irqService src, by simp [encode, BitVec.toNat_eq, h]⟩

theorem decodeUrp_instr_or_reserved (src w : Byte) :
    (∃ i, decodeUrp src w = .instr i) ∨ decodeUrp src w = .rejected (.reservedRequest w) := by
  unfold decodeUrp
  split
  case h_4 => exact .inr rfl
  all_goals exact .inl ⟨_, rfl⟩

end Sys2Proof
end

section
/-!
SUPPORT. The ids that no context has (30_encoding.md R90): a request or a reader's step with one is refused for its id.
-/

namespace Sys2Proof.Machine

variable {s : State} {src : Byte}

theorem context?_of_not_software (h : isSoftware s.nReaders src = false) : s.context? src = none := by
  by_cases hr : src = rtcIrq
  · simp [State.context?, hr]
  · have hn : s.nReaders ≤ src.toNat := by simpa [isSoftware, hr] using h
    rw [State.context?, if_neg hr, List.getElem?_eq_none hn]

theorem not_issuer_iff {n : Nat} : isIssuer n src = false ↔ src ≠ rtcIrq ∧ isSoftware n src = false := by
  simp [isIssuer]

theorem softwareReady_of_unused (h : isIssuer s.nReaders src = false) : s.softwareReady src = some .unusedContext := by
  obtain ⟨-, hs⟩ := not_issuer_iff.mp h
  simp [State.softwareReady, context?_of_not_software hs]

theorem requestReady_of_unused (hl : s.lifecycle ≠ .faulted) (h : isIssuer s.nReaders src = false) :
    s.requestReady src = some .unusedContext := by
  simp [State.requestReady, hl, (not_issuer_iff.mp h).1, softwareReady_of_unused h]

theorem initReady_of_unused (hl : s.lifecycle ≠ .faulted) (h : isIssuer s.nReaders src = false) :
    s.initReady src = some .unusedContext := by
  simp [State.initReady, hl, (not_issuer_iff.mp h).1, softwareReady_of_unused h]

theorem acceptInit_of_not_ready {r : Refusal} (h : s.initReady src = some r) : acceptInit src s = .refused r := by
  simp [acceptInit, h]

theorem acceptNow_of_not_ready {r : Refusal} (h : s.requestReady src = some r) : acceptNow src s = .refused r := by
  simp [acceptNow, h]

theorem acceptIrq_of_not_ready {r : Refusal} (h : s.requestReady src = some r) : acceptIrq src s = .refused r := by
  simp [acceptIrq, h]

theorem execRdSampleC_of_no_context (h : s.context? src = none) : execRdSampleC src s = .refused .unusedContext := by
  simp [execRdSampleC, h]

end Sys2Proof.Machine
end

section
/-!
SUPPORT. The interrupt sequencer run forward (42_interrupt_and_init.md R170 to R179): when it is entered, what each of
its steps leaves, and what the steps of one event kind leave together.
-/

namespace Sys2Proof.Machine

open Sys2Proof.Safety

variable {i : Instr} {s t : State} {k : Kind}

/-! ## Entry -/

theorem requestReady_rtcIrq_of_busy (h : s.lifecycle = .faulted ∨ s.seqState ≠ .idle) :
    s.requestReady rtcIrq = some .notEnabled := by
  by_cases hl : s.lifecycle = .faulted
  · simp [State.requestReady, hl]
  · simp [State.requestReady, hl, h.resolve_left hl]

theorem acceptIrq_rtcIrq (hl : s.lifecycle ≠ .faulted) (hq : s.seqState = .idle) (hv : s.periodValid = true) :
    acceptIrq rtcIrq s = .next (s.setSeqState .chkOvf) := by
  simp [acceptIrq, requestReady_none_iff.mpr ⟨hl, .inl ⟨rfl, hq⟩⟩, hv]

theorem acceptIrq_software {r : Byte} (hl : s.lifecycle ≠ .faulted) (hr : r ≠ rtcIrq) (hi : IdleAt s r) :
    acceptIrq r s = .next (s.enterFault .illegalContext 0x30 r) := by
  simp [acceptIrq, requestReady_none_iff.mpr ⟨hl, .inr ⟨hr, hi⟩⟩, hr]

/-- Once the Period Counter exists, sq.enter is RTC_IRQ's request (R170). -/
theorem execSqEnter_of_valid (hv : s.periodValid = true) : execSqEnter s = acceptIrq rtcIrq s := if_pos hv

theorem execSqEnter_of_not_enabled (h : s.lifecycle = .faulted ∨ s.seqState ≠ .idle ∨ s.periodValid = false) :
    execSqEnter s = .refused .notEnabled := by
  cases hv : s.periodValid with
  | false => simp [execSqEnter, hv]
  | true =>
    rw [execSqEnter_of_valid hv]
    exact acceptIrq_of_not_ready (requestReady_rtcIrq_of_busy (by simpa [hv] using h))

/-- A line of text whose expansion begins with the line of `i` takes the step of `i` (R99, R100). -/
theorem step_of_text_encode {a : Agent} {m : Mnemonic} {d : Draw} {rest : List Input} {ls : List Line}
    (hs : s.schedule = .text a m d :: rest) (ha : s.assemble a m = some (encode i :: ls)) :
    step s = exec i (s.take (ls.map (fun l => .line l d) ++ rest) d) := by
  rw [step_of_text hs, runText_of_cons ha, runLine_of_instr (decode_encode i)]

/-- `irq enter` is sq.enter, and `irq service` begins with it (R99, R100). -/
theorem assemble_irq_enter_or_service {m : Mnemonic} (hm : m = .enter ∨ m = .service) :
    ∃ ls, s.assemble .irq m = some (encode .sqEnter :: ls) := by
  rcases hm with rfl | rfl
  · exact ⟨[], rfl⟩
  · exact ⟨_, rfl⟩

theorem assemble_irq_service (s : State) :
    s.assemble .irq .service = some ((serviceSteps s.hw.event.ovf s.hw.event.cmp).map encode) := by
  simp only [State.assemble]
  cases s.hw.event.ovf <;> cases s.hw.event.cmp <;> rfl

/-! ## The steps of one event kind: check, acknowledge, count (R172 to R177) -/

/-- The check of an event of kind `k`. -/
def chkStep : Kind → Instr
  | .ovf => .sqChkOvf
  | .cmp => .sqChkCmp

/-- The increment for an event of kind `k`. -/
def incStep : Kind → Instr
  | .ovf => .sqIncOvf
  | .cmp => .sqIncCmp

/-- The state that enables the check (R30). -/
def chkState : Kind → SeqState
  | .ovf => .chkOvf
  | .cmp => .chkCmp

/-- The state that enables the acknowledgment, `ackStep k` (R30). -/
def ackState : Kind → SeqState
  | .ovf => .ackOvf
  | .cmp => .ackCmp

/-- The state that enables the increment (R30). -/
def incState : Kind → SeqState
  | .ovf => .incOvf
  | .cmp => .incCmp

/-- The state after the increment, or after a check that finds the flag clear (R172, R174, R175, R177). -/
def doneState : Kind → SeqState
  | .ovf => .chkCmp
  | .cmp => .exit

theorem exec_chkStep (hl : s.lifecycle ≠ .faulted) (hq : s.seqState = chkState k) :
    exec (chkStep k) s = .next (s.setSeqState (if s.hw.event.get k then ackState k else doneState k)) := by
  cases k <;> exact sequencerStep_next_iff.mpr ⟨hq, hl, by rw [readFlag_eq]; rfl⟩

theorem exec_ackStep (hl : s.lifecycle ≠ .faulted) (hq : s.seqState = ackState k) :
    exec (ackStep k) s = .next ((s.setHw (s.hw.resetEvent k)).setSeqState (incState k)) := by
  cases k <;> exact sequencerStep_next_iff.mpr ⟨hq, hl, rfl⟩

theorem exec_incStep (hl : s.lifecycle ≠ .faulted) (hq : s.seqState = incState k) :
    exec (incStep k) s = .next (s.increment.setSeqState (doneState k)) := by
  cases k <;> exact sequencerStep_next_iff.mpr ⟨hq, hl, rfl⟩

theorem exec_sqExit (hl : s.lifecycle ≠ .faulted) (hq : s.seqState = .exit) :
    exec .sqExit s = .next (s.setSeqState .idle) :=
  sequencerStep_next_iff.mpr ⟨hq, hl, rfl⟩

/-! ## Sequences of steps -/

theorem runAll_cons_of_next {is : List Instr} (h : exec i s = .next t) : runAll (i :: is) s = runAll is t := by
  simp [runAll, h]

theorem runAll_append_of_next {is js : List Instr} (h : runAll is s = .next t) :
    runAll (is ++ js) s = runAll js t := by
  induction is generalizing s with
  | nil => cases h; rfl
  | cons i is ih =>
    cases hx : exec i s with
    | next u =>
      rw [runAll_cons_of_next hx] at h
      rw [List.cons_append, runAll_cons_of_next hx, ih h]
    | fault f => exact nomatch f
    | refused r => simp [runAll, hx] at h

/-- The steps that a service takes for an event of kind `k`, by the flag that its check reads (R100). -/
def kindSteps (k : Kind) (flag : Bool) : List Instr :=
  chkStep k :: if flag then [ackStep k, incStep k] else []

/-- The state after them but for SEQ_STATE: the flag is clear, and PERIOD has gained 1 if it was set. -/
def State.countKind (s : State) (k : Kind) : State :=
  { s with
    period := s.period + BitVec.ofNat 32 (s.hw.event.get k).toNat
    incsGhost := s.incsGhost + (s.hw.event.get k).toNat
    hw := s.hw.resetEvent k }

theorem resetEvent_of_clear {h : Peripheral} (hf : h.event.get k = false) : h.resetEvent k = h := by
  obtain ⟨_, _, _, _, ⟨_, _⟩, _⟩ := h
  cases k <;> cases hf <;> rfl

theorem countKind_of_clear (hf : s.hw.event.get k = false) : s.countKind k = s := by
  simp [State.countKind, hf, resetEvent_of_clear hf]

theorem countKind_of_set (hf : s.hw.event.get k = true) : s.countKind k = (s.setHw (s.hw.resetEvent k)).increment := by
  rw [State.countKind, hf]
  rfl

theorem runAll_kindSteps (hl : s.lifecycle ≠ .faulted) (hq : s.seqState = chkState k) :
    runAll (kindSteps k (s.hw.event.get k)) s = .next ((s.countKind k).setSeqState (doneState k)) := by
  rw [kindSteps, runAll_cons_of_next (exec_chkStep hl hq)]
  cases hf : s.hw.event.get k with
  | false =>
    rw [countKind_of_clear hf]
    rfl
  | true =>
    have hack := exec_ackStep (s := s.setSeqState (ackState k)) hl rfl
    have hinc := exec_incStep (s := (s.setHw (s.hw.resetEvent k)).setSeqState (incState k)) hl rfl
    rw [countKind_of_set hf]
    exact (runAll_cons_of_next hack).trans (runAll_cons_of_next hinc)

theorem serviceSteps_eq (ovf cmp : Bool) :
    serviceSteps ovf cmp = .sqEnter :: (kindSteps .ovf ovf ++ (kindSteps .cmp cmp ++ [.sqExit])) := by
  cases ovf <;> cases cmp <;> rfl

theorem length_serviceSteps (ovf cmp : Bool) : (serviceSteps ovf cmp).length = 4 + 2 * (ovf.toNat + cmp.toNat) := by
  cases ovf <;> cases cmp <;> rfl

theorem runAll_serviceSteps (hl : s.lifecycle ≠ .faulted) (hq : s.seqState = .idle) (hv : s.periodValid = true) :
    runAll (serviceSteps s.hw.event.ovf s.hw.event.cmp) s =
      .next (((s.countKind .ovf).countKind .cmp).setSeqState .idle) := by
  have henter : exec .sqEnter s = .next (s.setSeqState .chkOvf) :=
    (execSqEnter_of_valid hv).trans (acceptIrq_rtcIrq hl hq hv)
  calc runAll (serviceSteps s.hw.event.ovf s.hw.event.cmp) s
      = runAll (kindSteps .ovf s.hw.event.ovf ++ (kindSteps .cmp s.hw.event.cmp ++ [.sqExit]))
          (s.setSeqState .chkOvf) := by
        rw [serviceSteps_eq, runAll_cons_of_next henter]
    _ = runAll (kindSteps .cmp s.hw.event.cmp ++ [.sqExit]) ((s.countKind .ovf).setSeqState .chkCmp) :=
        runAll_append_of_next (runAll_kindSteps (k := .ovf) (s := s.setSeqState .chkOvf) hl rfl)
    _ = runAll [.sqExit] (((s.countKind .ovf).countKind .cmp).setSeqState .exit) :=
        runAll_append_of_next (runAll_kindSteps (k := .cmp) (s := (s.countKind .ovf).setSeqState .chkCmp) hl rfl)
    _ = .next (((s.countKind .ovf).countKind .cmp).setSeqState .idle) :=
        runAll_cons_of_next (exec_sqExit hl rfl)

end Sys2Proof.Machine
end

section
/-!
PROOFS. The statements of the encoding (30_encoding.md): the decoder against the encoder and the tables, the ids that no
context has, and the service that a schedule's text stands for.
-/

namespace Sys2Proof.Machine

/-- Settles O8: the decoder reads each field back from the nibbles and operands that the encoder writes. -/
theorem decodeOfEncodeIsIdentity : Obligations.DecodeOfEncodeIsIdentity :=
  decode_encode

/-- Settles O9: each decoder fixes both nibbles of the word, or carries them in the instruction, with the operand. -/
theorem decodedLineIsTheEncoding : Obligations.DecodedLineIsTheEncoding :=
  fun _ _ => encode_of_decode

/-- Settles O7: each word is the encoding of the operation that the table lists it for. -/
theorem specWordsDecode : Obligations.SpecWordsDecode :=
  ⟨decode_encode (.init 0x05), decode_encode (.now 0x05), decode_encode (.irqService 0xFF), decode_encode .getCounter,
    decode_encode (.setCompare 3 0x80000000), decode_encode (.resetEvent .cmp), decode_encode (.rdSampleC 0x01),
    decode_encode .sqExit, decode_encode .inSetcmp, decode_encode .hwClearApply⟩

/-- Settles O10: on each port a word is accepted iff its table lists it, beside an operand that it may carry. -/
theorem decoderAcceptsExactlyTheListedWords : Obligations.DecoderAcceptsExactlyTheListedWords := by
  refine ⟨?_, decodeUrp_instr_or_reserved, ?_, ?_⟩
  · intro src w
    rw [decode_accepts_iff, exists_encode_eq_urp_iff]
  · intro steps ctx w
    have hsome : (∃ i, stepOf ctx w = some i) ↔ w.toNat ∈ steps := by
      rw [← Option.isSome_iff_exists, stepOf_isSome_iff]; rfl
    constructor
    · simp only [decode, decodeMop_eq_instr_iff, exists_and_right, hsome, ← or_assoc]
      exact and_congr_right fun hw => or_congr_left (hiNibble_eq_reader_iff hw)
    · rw [decode, decodeMop_eq_reserved_iff, ← hsome, ← Option.isSome_iff_exists, Option.not_isSome_iff_eq_none]
  · intro commands w data
    have hsome : (∃ i, commandOf w data = some i) ↔ (0x20 ≤ w.toNat ∧ w.toNat ≤ 0x2F) ∨ w.toNat ∈ commands := by
      rw [← Option.isSome_iff_exists, commandOf_isSome_iff]; rfl
    constructor
    · simp only [decode, decodePcp_eq_instr_iff, exists_and_right, hsome, hiNibble_eq_compare_iff]
      tauto
    · rw [decode, decodePcp_eq_reserved_iff, ← not_or, ← hsome, ← Option.isSome_iff_exists,
        Option.not_isSome_iff_eq_none]

/-- Settles O6: the five instructions that carry an id find no context for it, and no other is ill formed. -/
theorem unusedContextsAreRefused : Obligations.UnusedContextsAreRefused := by
  intro s i hl hi
  cases i with
  | init src => exact acceptInit_of_not_ready (initReady_of_unused hl hi)
  | now src | rdSampleP src => exact acceptNow_of_not_ready (requestReady_of_unused hl hi)
  | irqService src => exact acceptIrq_of_not_ready (requestReady_of_unused hl hi)
  | rdSampleC r => exact execRdSampleC_of_no_context (context?_of_not_software hi)
  | _ => cases hi

/-- Settles O25: each event kind's steps count its flag, and they follow each other. -/
theorem serviceCountsEachSetFlag : Obligations.ServiceCountsEachSetFlag := by
  intro s hl hq hv
  refine ⟨assemble_irq_service s, (execSqEnter_of_valid hv).symm, length_serviceSteps _ _, ?_⟩
  rw [runAll_serviceSteps hl hq hv, BitVec.ofNat_add, ← BitVec.add_assoc, ← Nat.add_assoc, ← hq]
  rfl

/-- Settles O19: an entry is RTC_IRQ's acceptance, and `irq enter` and `irq service` take sq.enter first. -/
theorem interruptEntry : Obligations.InterruptEntry := by
  refine ⟨?_, ?_, ?_, ?_, ?_, ?_⟩
  · intro s hl hq hv
    have h := acceptIrq_rtcIrq hl hq hv
    exact ⟨h, (execSqEnter_of_valid hv).trans h⟩
  · intro s h
    exact ⟨⟨_, acceptIrq_of_not_ready (requestReady_rtcIrq_of_busy h)⟩,
      ⟨_, execSqEnter_of_not_enabled (h.imp_right .inl)⟩⟩
  · exact fun s hv => execSqEnter_of_not_enabled (.inr (.inr hv))
  · exact fun s r c hl hr hc hp => acceptIrq_software hl hr ⟨c, hc, hp⟩
  · intro s d rest hs hl hq hv
    rw [step_of_text_encode hs (i := .sqEnter) (ls := []) rfl]
    exact (execSqEnter_of_valid (s := s.take rest d) hv).trans (acceptIrq_rtcIrq hl hq hv)
  · intro s m d rest hm hs h
    obtain ⟨ls, ha⟩ := assemble_irq_enter_or_service (s := s) hm
    rw [step_of_text_encode hs ha]
    exact execSqEnter_of_not_enabled h

end Sys2Proof.Machine
end

section
/-!
SUPPORT. The counter's own steps and the increments (40_period_counter.md R110 to R119): when they are enabled, and what
they leave.
-/

namespace Sys2Proof.Machine

open Sys2Proof.Safety

variable {s : State} {k : Kind}

/-! ## Steps that are not enabled (R14, R99) -/

theorem guarded_of_not_enabled {e : Bool} {u : State} (h : s.lifecycle = .faulted ∨ e = false) :
    guarded s e u = .refused .notEnabled := by
  rcases h with h | rfl
  · simp [guarded, State.live, h]
  · rfl

theorem sequencerStep_of_not_enabled {q : SeqState} {u : State} (h : s.lifecycle = .faulted ∨ s.seqState ≠ q) :
    sequencerStep s q u = .refused .notEnabled :=
  guarded_of_not_enabled (h.imp_right beq_false_of_ne)

/-! ## INCREMENT (R110) -/

theorem increment_period_toNat (s : State) : s.increment.period.toNat = (s.period.toNat + 1) % 2 ^ 32 := by
  simp [BitVec.toNat_add]

/-- Adding 1 modulo an even number inverts the low bit. -/
theorem increment_parity (s : State) : s.increment.parity = !s.parity := by
  have hmod : s.increment.period.toNat % 2 = 1 ↔ ¬s.period.toNat % 2 = 1 := by
    rw [increment_period_toNat]
    omega
  simp only [parity_eq, hmod, decide_not]

/-- The increment of either kind counts one event, whatever the parity is (R174, R177). -/
theorem incStep_counts (hl : s.lifecycle ≠ .faulted) (hq : s.seqState = incState k) :
    ∃ t, exec (incStep k) s = .next t ∧
      t = { s with seqState := doneState k, period := t.period, incsGhost := s.incsGhost + 1 } ∧
      t.period.toNat = (s.period.toNat + 1) % 2 ^ 32 ∧ t.parity = !s.parity :=
  ⟨_, exec_incStep hl hq, rfl, increment_period_toNat s, increment_parity s⟩

/-! ## The steps of the counter (R115, R117) -/

theorem exec_hwTick (hl : s.lifecycle ≠ .faulted) (hr : s.hw.running = true) :
    exec .hwTick s = .next { s with hw := s.hw.tick s.params, tGhost := s.tGhost.map (· + 1) } :=
  guarded_next_iff.mpr ⟨hr, hl, rfl⟩

theorem exec_hwClearApply (hl : s.lifecycle ≠ .faulted) (hp : s.hw.clearPending = true) :
    exec .hwClearApply s = .next { s with hw := s.hw.applyClear, tGhost := some 0 } :=
  guarded_next_iff.mpr ⟨hp, hl, rfl⟩

/-- The flag of an event after a tick (R116): set before, or the event occurs and may set it. -/
theorem tick_ovf_iff (h : Peripheral) (p : Params) :
    (h.tick p).event.ovf = true ↔ h.event.ovf = true ∨ overflows p h.counter = true ∧ mayLatch p h .ovf = true := by
  simp [tick_eq]

theorem tick_cmp_iff (h : Peripheral) (p : Params) :
    (h.tick p).event.cmp = true ↔
      h.event.cmp = true ∨ matchesCompare h (trunc p.W (h.counter + 1)) = true ∧ mayLatch p h .cmp = true := by
  simp [tick_eq]

theorem mayLatch_iff {p : Params} {h : Peripheral} :
    mayLatch p h k = true ↔ h.inten.get k = true ∨ p.latchWhenDisabled = true := by
  simp [mayLatch]

/-! ## The multiples of H (R119) -/

/-- A number of ticks ends a cycle iff it is an even multiple of H. -/
theorem mod_cycle_eq_zero_iff {H n : Nat} : n % (2 * H) = 0 ↔ ∃ k, n = 2 * k * H := by
  rw [← Nat.dvd_iff_mod_eq_zero, dvd_def]
  exact exists_congr fun k => by rw [Nat.mul_right_comm]

/-- A number of ticks ends the first half of a cycle iff it is an odd multiple of H. -/
theorem mod_cycle_eq_half_iff {H n : Nat} (hH : 0 < H) : n % (2 * H) = H ↔ ∃ k, n = (2 * k + 1) * H := by
  constructor
  · intro h
    refine ⟨n / (2 * H), ?_⟩
    calc n = 2 * H * (n / (2 * H)) + n % (2 * H) := (Nat.div_add_mod _ _).symm
      _ = (2 * (n / (2 * H)) + 1) * H := by rw [h]; ring
  · rintro ⟨k, rfl⟩
    calc (2 * k + 1) * H % (2 * H) = (H + 2 * H * k) % (2 * H) := by congr 1; ring
      _ = H := by rw [Nat.add_mul_mod_self_left, Nat.mod_eq_of_lt (by omega)]

end Sys2Proof.Machine
end

section
/-!
SUPPORT. Progress in unending runs (R118, R183): a step that fairness brings is taken in the state that waits for it, and
each step of the init sequencer moves it on.
-/

namespace Sys2Proof.Safety

open Sys2Proof.Machine

variable {i : Instr} {s t : State} {q : InitState} {state : Nat → State} {label : Nat → Instr}

/-! ## Leads-to -/

/-- Whenever `P` holds, `Q` holds then or later. -/
def LeadsTo (P Q : Nat → Prop) : Prop := ∀ n, P n → ∃ m ≥ n, Q m

theorem LeadsTo.trans {P Q R : Nat → Prop} (h : LeadsTo P Q) (h' : LeadsTo Q R) : LeadsTo P R := by
  intro n hn
  obtain ⟨m, hm, hq⟩ := h n hn
  obtain ⟨l, hl, hr⟩ := h' m hq
  exact ⟨l, hm.trans hl, hr⟩

/-- What every step but a `Q` one keeps, and a `Q` step turns into `R`, leads to `R` once a `Q` step is to come. -/
theorem leadsTo_of_kept {P Q R : Nat → Prop} (hkeep : ∀ k, P k → ¬Q k → P (k + 1)) (hstep : ∀ k, P k → Q k → R (k + 1))
    (hfair : LeadsTo P Q) : LeadsTo P R := by
  intro n hn
  by_contra hnone
  have hnot : ∀ k ≥ n, P k → ¬Q k := fun k hk hp hq => hnone ⟨k + 1, by omega, hstep k hp hq⟩
  have hall : ∀ k ≥ n, P k := fun k hk =>
    Nat.le_induction hn (fun k hk hp => hkeep k hp (hnot k hk hp)) k hk
  obtain ⟨m, hm, hq⟩ := hfair n hn
  exact hnot m hm (hall m hm) hq

/-! ## Unending runs -/

theorem IsEndlessRun.live (h : IsEndlessRun state label) (k : Nat) : (state k).lifecycle ≠ .faulted := by
  obtain ⟨-, d, hx⟩ := h k
  exact (exec_next hx).1

/-- No step of an unending run faults, since none could follow (R14): each has its instruction's own effect. -/
theorem IsEndlessRun.ownEffect (h : IsEndlessRun state label) (k : Nat) :
    ∃ d, OwnEffect { state k with draw := d } (state (k + 1)) (label k) := by
  obtain ⟨-, d, hx⟩ := h k
  refine ⟨d, ?_⟩
  obtain ⟨-, hf | ho⟩ := exec_next hx
  · obtain ⟨cause, op, src, -, ht⟩ := hf.enters
    exact absurd (congrArg State.lifecycle ht) (h.live (k + 1))
  · exact ho

/-! ## The init sequencer -/

/-- INIT_STATE after the step that it enables (R181, R190 to R196); in.poll goes on only when it reads 0. -/
def nextInit : InitState → InitState
  | .idle => .idle
  | .zero => .setcmp
  | .setcmp => .clear
  | .clear => .start
  | .start => .poll
  | .poll => .enOvf
  | .enOvf => .enCmp
  | .enCmp => .idle

/-- An init has come to INIT_STATE `q`; at IDLE it is completed. -/
def InitAt (q : InitState) (s : State) : Prop :=
  s.initState = q ∧ s.lifecycle = if q = .idle then .running else .initializing

/-- A step of INITSEQ moves the init on, the poll alone excepted. -/
theorem InitAt.advance (h : InitAt q s) (hpoll : q ≠ .poll) (hi : isInitStep i = true) (ho : OwnEffect s t i) :
    InitAt (nextInit q) t := by
  obtain ⟨rfl, hl⟩ := h
  cases i with
  | inZero | inClear | inStart | inEnOvf => obtain ⟨hq, rfl⟩ := ho; rw [hq] at hl ⊢; exact ⟨rfl, hl⟩
  | inSetcmp => obtain ⟨hq, -, rfl⟩ := ho; rw [hq] at hl ⊢; exact ⟨rfl, hl⟩
  | inPoll => obtain ⟨hq, -⟩ := ho; exact absurd hq hpoll
  | inEnCmp => obtain ⟨hq, _, _, -, -, rfl⟩ := ho; rw [hq]; exact ⟨rfl, rfl⟩
  | _ => cases hi

/-- No other step touches an init that has begun (R180): a second INIT faults. -/
theorem InitAt.stay (h : InitAt q s) (hq : q ≠ .idle) (hi : isInitStep i ≠ true) (ho : OwnEffect s t i) :
    InitAt q t := by
  cases i with
  | init _ =>
    obtain ⟨-, hu, -⟩ := ho
    obtain ⟨-, hl⟩ := h
    simp [hu, hq] at hl
  | now _ | rdSampleP _ | irqService _ => obtain ⟨-, -, -, rfl⟩ := ho; exact h
  | rdSampleC _ => obtain ⟨_, _, -, -, -, rfl⟩ := ho; exact h
  | sqEnter => obtain ⟨-, -, rfl⟩ := ho; exact h
  | inZero | inSetcmp | inClear | inStart | inPoll | inEnOvf | inEnCmp => exact absurd rfl hi
  | _ => obtain ⟨-, rfl⟩ := ho; exact h

/-- Under fairness an init leaves each INIT_STATE but the poll's (R183). -/
theorem InitFair.leadsTo_nextInit (h : IsEndlessRun state label) (hf : InitFair state label) (hq : q ≠ .idle)
    (hpoll : q ≠ .poll) : LeadsTo (fun n => InitAt q (state n)) (fun n => InitAt (nextInit q) (state n)) := by
  refine leadsTo_of_kept (Q := fun n => isInitStep (label n) = true) ?_ ?_ ?_
  · intro k hk hi
    obtain ⟨d, ho⟩ := h.ownEffect k
    exact InitAt.stay (s := { state k with draw := d }) hk hq hi ho
  · intro k hk hi
    obtain ⟨d, ho⟩ := h.ownEffect k
    exact InitAt.advance (s := { state k with draw := d }) hk hpoll hi ho
  · intro n hn
    exact hf n (hn.1 ▸ hq)

/-- An init that has not reached its poll loop reaches it (R183). -/
theorem InitFair.reaches_poll (h : IsEndlessRun state label) (hf : InitFair state label)
    (hq : q = .zero ∨ q = .setcmp ∨ q = .clear ∨ q = .start) :
    LeadsTo (fun n => InitAt q (state n)) (fun n => InitAt .poll (state n)) := by
  have hstart := hf.leadsTo_nextInit h (q := .start) nofun nofun
  have hclear := (hf.leadsTo_nextInit h (q := .clear) nofun nofun).trans hstart
  have hsetcmp := (hf.leadsTo_nextInit h (q := .setcmp) nofun nofun).trans hclear
  have hzero := (hf.leadsTo_nextInit h (q := .zero) nofun nofun).trans hsetcmp
  rcases hq with rfl | rfl | rfl | rfl
  · exact hzero
  · exact hsetcmp
  · exact hclear
  · exact hstart

/-- An init past its poll loop completes (R195, R196). -/
theorem InitFair.completes (h : IsEndlessRun state label) (hf : InitFair state label) (hq : q = .enOvf ∨ q = .enCmp) :
    LeadsTo (fun n => InitAt q (state n)) (fun n => InitAt .idle (state n)) := by
  have hcmp := hf.leadsTo_nextInit h (q := .enCmp) nofun nofun
  have hovf := (hf.leadsTo_nextInit h (q := .enOvf) nofun nofun).trans hcmp
  rcases hq with rfl | rfl
  · exact hovf
  · exact hcmp

end Sys2Proof.Safety
end

section
/-!
PROOFS. The statements of the Period Counter and the counter's ticks (40_period_counter.md): increments, ticks, the
deferred clear, the half-cycles, and progress under fairness.
-/

namespace Sys2Proof.Safety

open Sys2Proof.Machine

/-- Settles O34: each step that fairness brings an init moves it on, and a tick or a clear takes effect in its step. -/
theorem fairRunsProgress : Obligations.FairRunsProgress := by
  intro state label n hrun
  refine ⟨fun hfair hl => ⟨fun hq => ?_, fun hq => ?_⟩, fun hfair hp => ?_, fun hfair hr => ?_⟩
  · have hn : (state n).initState ≠ .idle := by rcases hq with h | h | h | h <;> simp [h]
    obtain ⟨m, hm, hpoll, -⟩ := hfair.reaches_poll hrun hq n ⟨rfl, by rw [if_neg hn, hl]⟩
    exact ⟨m, hm, hpoll⟩
  · have hn : (state n).initState ≠ .idle := by rcases hq with h | h <;> simp [h]
    exact hfair.completes hrun hq n ⟨rfl, by rw [if_neg hn, hl]⟩
  · obtain ⟨m, hm, hi⟩ := hfair n hp
    obtain ⟨d, ho⟩ := hrun.ownEffect m
    obtain ⟨-, ht⟩ : OwnEffect _ _ .hwClearApply := hi ▸ ho
    refine ⟨m + 1, by omega, ?_⟩
    rw [ht]
    exact ⟨rfl, rfl, rfl⟩
  · obtain ⟨m, hm, hi⟩ := hfair n hr
    obtain ⟨d, ho⟩ := hrun.ownEffect m
    obtain ⟨-, ht⟩ : OwnEffect _ _ .hwTick := hi ▸ ho
    refine ⟨m, hm, ?_⟩
    rw [ht]
    rfl

/-- Settles O41: the tick's update, with each comparison read as a statement about the counter. -/
theorem tickAdvancesAndDetects : Obligations.TickAdvancesAndDetects := by
  intro s hp _
  obtain ⟨⟨-, hw⟩, -⟩ := valid_iff.mp hp
  refine ⟨fun hl hr => ⟨_, exec_hwTick hl hr, rfl, trunc_succ_toNat hw _, ?_, ?_⟩, guarded_of_not_enabled⟩
  · rw [tick_ovf_iff, overflows_iff hw, mayLatch_iff, KindBits.get]
  · rw [tick_cmp_iff, mayLatch_iff, matchesCompare, beq_iff_eq, KindBits.get]
    rfl

/-- Settles O43: OVF ends a cycle and CMP its first half, and a cycle is two half-cycles. -/
theorem eventsMarkEveryHalfCycle : Obligations.EventsMarkEveryHalfCycle := by
  intro s T hp hl hr hT hcounter hcc hlatch hclear
  obtain ⟨⟨hw, -⟩, -⟩ := valid_iff.mp hp
  have hcycle : 2 ^ s.params.W = 2 * halfTicks s.params.W := two_pow_eq_halves (by omega)
  refine ⟨_, exec_hwTick hl hr, by simp [hT], ?_, ?_⟩
  · have hcmp := matchesCompare_iff_mod hp hcounter hcc
    rw [hcycle, mod_cycle_eq_half_iff (halfTicks_pos _)] at hcmp
    rw [← hcmp]
    simp [tick_cmp_iff, hlatch, hclear]
  · have hovf := overflows_iff_mod hp hcounter
    rw [hcycle, mod_cycle_eq_zero_iff] at hovf
    rw [← hovf]
    simp [tick_ovf_iff, hlatch, hclear]

/-- Settles O23: each increment adds 1 to PERIOD, which inverts its low bit. -/
theorem incrementsCountOneEvent : Obligations.IncrementsCountOneEvent :=
  fun _ => ⟨incStep_counts (k := .ovf), incStep_counts (k := .cmp), sequencerStep_of_not_enabled,
    sequencerStep_of_not_enabled⟩

/-- Settles O42: the clear writes COUNTER, CLEAR_PENDING and the ghost, and no flag. -/
theorem clearAppliesLater : Obligations.ClearAppliesLater :=
  fun _ => ⟨exec_hwClearApply, guarded_of_not_enabled⟩

end Sys2Proof.Safety
end

section
/-!
SUPPORT. The composition unit in arithmetic (41_timestamp_resolver.md R144 to R147): its two terms as natural numbers,
their sum as a period index and a remainder, and what the sum is at a tick.
-/

namespace Sys2Proof.Machine

variable {w : Nat} {p c : Word}

/-! ## The corrected counter -/

/-- The top bit of a W-bit value, as a number. -/
theorem div_halfTicks_lt_two {n : Nat} (hw : 1 ≤ w) (hn : n < 2 ^ w) : n / halfTicks w < 2 := by
  rwa [Nat.div_lt_iff_lt_mul (halfTicks_pos w), ← two_pow_eq_halves hw]

/-- The correction touches the top bit alone, which becomes the exclusive or of itself and the parity of `m` (R144). -/
theorem xor_parity_mul_halfTicks {m n : Nat} (hw : 1 ≤ w) (hn : n < 2 ^ w) :
    n ^^^ (m % 2 * halfTicks w) = (m + n / halfTicks w) % 2 * halfTicks w + n % halfTicks w := by
  have hdiv : (n ^^^ (m % 2 * halfTicks w)) / halfTicks w = (m + n / halfTicks w) % 2 := by
    have htop : n / halfTicks w ^^^ m % 2 < 2 ^ 1 :=
      Nat.xor_lt_two_pow (div_halfTicks_lt_two hw hn) (Nat.mod_lt m (by decide))
    calc (n ^^^ (m % 2 * halfTicks w)) / halfTicks w
        = n / halfTicks w ^^^ m % 2 := by
          rw [halfTicks, Nat.xor_div_two_pow, Nat.mul_div_cancel _ (Nat.two_pow_pos _)]
      _ = (n / halfTicks w ^^^ m % 2) % 2 := (Nat.mod_eq_of_lt htop).symm
      _ = (m + n / halfTicks w) % 2 := by rw [Nat.xor_mod_two_eq, Nat.add_mod_mod, Nat.add_comm]
  have hmod : (n ^^^ (m % 2 * halfTicks w)) % halfTicks w = n % halfTicks w := by
    rw [halfTicks, Nat.xor_mod_two_pow, Nat.mul_mod_left, Nat.xor_zero]
  rw [← hdiv, ← hmod, Nat.div_add_mod']

/-! ## The sum -/

/-- R147's bound on the sum of R144's two terms. -/
theorem terms_le (hw : 1 ≤ w) (hc : c.toNat < 2 ^ w) :
    p.toNat * halfTicks w + (c.toNat ^^^ (p.toNat % 2 * halfTicks w)) ≤
      2 ^ 32 * halfTicks w + (halfTicks w - 1) := by
  have hmod := Nat.mod_lt c.toNat (halfTicks_pos w)
  have hindex : p.toNat + (p.toNat + c.toNat / halfTicks w) % 2 ≤ 2 ^ 32 := by omega
  have hmul := Nat.mul_le_mul_right (halfTicks w) hindex
  rw [xor_parity_mul_halfTicks hw hc, ← Nat.add_assoc, ← Nat.add_mul]
  omega

theorem bound_lt_two_pow_64 (hw : w ≤ 32) : 2 ^ 32 * halfTicks w + (halfTicks w - 1) < 2 ^ 64 := by
  have := halfTicks_lt hw
  omega

/-- The 64-bit sum is the sum of its terms as natural numbers (R147). -/
theorem resolve_toNat_terms (h1 : 1 ≤ w) (hw : w ≤ 32) (hc : c.toNat < 2 ^ w) :
    (resolve w p c).toNat = p.toNat * halfTicks w + (c.toNat ^^^ (p.toNat % 2 * halfTicks w)) := by
  have hle := terms_le (p := p) h1 hc
  have hlt := bound_lt_two_pow_64 hw
  have hH := halfTicks_lt hw
  have hp : p.toNat * halfTicks w < 2 ^ 64 := by omega
  have hbit : p.toNat % 2 * halfTicks w < 2 ^ 64 := by
    rcases Nat.mod_two_eq_zero_or_one p.toNat with h | h <;> rw [h] <;> omega
  have hbit64 : ((p.setWidth 64 &&& 1) <<< (w - 1)).toNat = p.toNat % 2 * halfTicks w := by
    rw [BitVec.toNat_shiftLeft, BitVec.toNat_and, BitVec.toNat_setWidth_of_le (by decide), Nat.shiftLeft_eq]
    change (p.toNat &&& 1) * halfTicks w % 2 ^ 64 = _
    rw [Nat.and_one_is_mod, Nat.mod_eq_of_lt hbit]
  have hhigh : (p.setWidth 64 <<< (w - 1)).toNat = p.toNat * halfTicks w := by
    rw [BitVec.toNat_shiftLeft, BitVec.toNat_setWidth_of_le (by decide), Nat.shiftLeft_eq]
    exact Nat.mod_eq_of_lt hp
  have hlow : (c.setWidth 64 ^^^ ((p.setWidth 64 &&& 1) <<< (w - 1))).toNat =
      c.toNat ^^^ (p.toNat % 2 * halfTicks w) := by
    rw [BitVec.toNat_xor, hbit64, BitVec.toNat_setWidth_of_le (by decide)]
  rw [resolve, BitVec.toNat_add_of_lt (by rw [hhigh, hlow]; omega), hhigh, hlow]

/-- The result is a number of whole periods and the counter's low W-1 bits (R95, R146). -/
theorem resolve_toNat (h1 : 1 ≤ w) (hw : w ≤ 32) (hc : c.toNat < 2 ^ w) :
    (resolve w p c).toNat =
      (p.toNat + (p.toNat + c.toNat / halfTicks w) % 2) * halfTicks w + c.toNat % halfTicks w := by
  rw [resolve_toNat_terms h1 hw hc, xor_parity_mul_halfTicks h1 hc, ← Nat.add_assoc, ← Nat.add_mul]

/-- The exclusive or of two bits is the parity of their sum. -/
theorem parity_xor_top_bit (h1 : 1 ≤ w) (hc : c.toNat < 2 ^ w) :
    (p.getLsbD 0 ^^ c.getLsbD (w - 1)).toNat = (p.toNat + c.toNat / halfTicks w) % 2 := by
  have htop := div_halfTicks_lt_two h1 hc
  have hp : p.getLsbD 0 = decide (p.toNat % 2 = 1) := by simp [BitVec.getLsbD]
  have hcb : c.getLsbD (w - 1) = decide (c.toNat / halfTicks w % 2 = 1) := Nat.testBit_eq_decide_div_mod_eq
  rw [hp, hcb, Nat.add_mod]
  rcases Nat.mod_two_eq_zero_or_one p.toNat with h | h <;>
    rcases Nat.mod_two_eq_zero_or_one (c.toNat / halfTicks w) with h' | h' <;> simp [h, h']

/-! ## At a tick -/

/-- The period index of a result is the half-cycle index less twice the half of the lag, rounded down (R150). -/
theorem index_eq_sub_lag (m h : Nat) : ((m + (m + h) % 2 : Nat) : Int) = h - 2 * (((h : Int) - m) / 2) := by
  omega

/-- A counter that holds `T` modulo the cycle enters the result as the half-cycle index and the ticks since (R43). -/
theorem resolve_toNat_of_tick {T : Nat} (h1 : 1 ≤ w) (hw : w ≤ 32) (hc : c.toNat = T % 2 ^ w) :
    (resolve w p c).toNat =
      (p.toNat + (p.toNat + T / halfTicks w) % 2) * halfTicks w + T % halfTicks w := by
  rw [resolve_toNat h1 hw (hc ▸ Nat.mod_lt T (Nat.two_pow_pos w)), hc, two_pow_eq_halves h1,
    Nat.mod_mul_left_div_self, Nat.mod_mod_of_dvd T (Nat.dvd_mul_left _ _), Nat.add_mod_mod]

end Sys2Proof.Machine
end

section
/-!
SUPPORT. The reader's two steps run forward (41_timestamp_resolver.md R140 to R156): when each is enabled, what it
leaves, and that it sees and writes the registers of its own context alone.
-/

namespace Sys2Proof.Machine

open Sys2Proof.Safety

variable {i : Instr} {s t : State} {r q : Byte} {c : Context} {p : Word}

/-! ## Refusals -/

/-- What answers no next state refuses: the model has no fault outcome (R236). -/
theorem refused_of_not_next {x : Host.Outcome State Fault Refusal} (h : ∀ t, x ≠ .next t) : ∃ f, x = .refused f := by
  cases x with
  | next t => exact absurd rfl (h t)
  | fault f => exact nomatch f
  | refused f => exact ⟨f, rfl⟩

/-! ## The first sample (R141) -/

theorem acceptNow_ready (h : acceptNow r s = .next t) : s.requestReady r = none := by
  cases hr : s.requestReady r with
  | none => rfl
  | some f => rw [acceptNow_of_not_ready hr] at h; cases h

theorem acceptNow_rtcIrq (h : s.requestReady rtcIrq = none) :
    acceptNow rtcIrq s = .next (s.enterFault .illegalContext 0x20 rtcIrq) := by
  simp [acceptNow, h]

theorem acceptNow_not_running (h : s.requestReady r = none) (hr : r ≠ rtcIrq) (hl : s.lifecycle ≠ .running) :
    acceptNow r s = .next (s.enterFault .notInitialized 0x20 r) := by
  simp [acceptNow, h, hr, hl]

theorem acceptNow_running (h : s.requestReady r = none) (hr : r ≠ rtcIrq) (hl : s.lifecycle = .running) :
    acceptNow r s = .next (s.modifyContext r fun c => { c with pLatch := some s.period, portState := .haveP }) := by
  simp [acceptNow, h, hr, hl]

/-- NOW's acceptance is the step rd.sample_p (R140, R141). -/
theorem exec_eq_acceptNow (hi : i = .now r ∨ i = .rdSampleP r) : exec i s = acceptNow r s := by
  rcases hi with rfl | rfl <;> rfl

/-! ## The second sample (R143) -/

theorem execRdSampleC_of_latched (hl : s.lifecycle ≠ .faulted) (hc : s.context? r = some c)
    (hp : c.portState = .haveP) (hv : c.pLatch = some p) :
    execRdSampleC r s = .next (s.modifyContext r fun c => c.deliverStamp s.params.W p s.sampleCounter) := by
  simp [execRdSampleC, hc, hp, hl, hv]

/-- The context after the second sample holds the composition of the latched PERIOD and the counter. -/
theorem context?_after_sample (hc : s.context? r = some c) :
    (s.modifyContext r fun c => c.deliverStamp s.params.W p s.sampleCounter).context? r =
      some (c.deliverStamp s.params.W p (trunc s.params.W s.hw.counter)) := by
  rw [modifyContext_same, hc, sampleCounter_eq]
  rfl

/-! ## Contexts written (R154) -/

/-- The context whose registers an instruction writes: the issuer, or the owner whose INIT in.en_cmp completes. -/
def State.writtenContext (s : State) : Instr → Option Byte
  | .init r | .now r | .rdSampleP r | .rdSampleC r => some r
  | .inEnCmp => s.initOwner
  | _ => none

/-- No instruction touches the registers of another context. -/
theorem exec_context?_of_not_written (h : exec i s = .next t) (hq : s.writtenContext i ≠ some q) :
    t.context? q = s.context? q := by
  have hne : ∀ r, s.writtenContext i = some r → q ≠ r := fun r hr hqr => hq (hqr ▸ hr)
  obtain ⟨-, hf | ho⟩ := exec_next h
  · obtain ⟨_, _, _, -, rfl⟩ := hf.enters
    rfl
  · cases i with
    | init r | now r | rdSampleP r => obtain ⟨-, -, -, rfl⟩ := ho; exact modifyContext_other _ (hne r rfl)
    | rdSampleC r => obtain ⟨_, _, -, -, -, rfl⟩ := ho; exact modifyContext_other _ (hne r rfl)
    | inEnCmp => obtain ⟨-, o, _, hown, -, rfl⟩ := ho; exact modifyContext_other _ (hne o hown)
    | irqService _ => obtain ⟨-, -, -, rfl⟩ := ho; rfl
    | sqEnter | inSetcmp => obtain ⟨-, -, rfl⟩ := ho; rfl
    | _ => obtain ⟨-, rfl⟩ := ho; rfl

/-- What a writer of context `r` has found: its second sample due, its port idle, or its INIT under way. -/
theorem OwnEffect.of_writtenContext (h : OwnEffect s t i) (hw : s.writtenContext i = some r) :
    i = .rdSampleC r ∨ IdleAt s r ∨ s.initState ≠ .idle ∧ s.initOwner = some r := by
  cases i with
  | init _ | now _ | rdSampleP _ =>
    obtain rfl := Option.some.inj hw
    obtain ⟨-, -, hidle, -⟩ := h
    exact .inr (.inl hidle)
  | rdSampleC _ => exact .inl (congrArg _ (Option.some.inj hw))
  | inEnCmp =>
    obtain ⟨hq, -⟩ := h
    exact .inr (.inr ⟨by simp [hq], hw⟩)
  | _ => cases hw

/-- A context between its two samples is written by its own second sample alone: its port is not idle, and the invariant
finds the owner of a running init waiting for it. -/
theorem exec_context?_of_haveP (hi : Inv s) (hc : s.context? r = some c) (hp : c.portState = .haveP)
    (h : exec i s = .next t) (hne : i ≠ .rdSampleC r) : t.context? r = some c := by
  by_cases hw : s.writtenContext i = some r
  · obtain ⟨-, hf | ho⟩ := exec_next h
    · obtain ⟨_, _, _, -, rfl⟩ := hf.enters
      exact hc
    · exfalso
      obtain hir | ⟨c', hc', hp'⟩ | ⟨hq, ho⟩ := ho.of_writtenContext hw
      · exact hne hir
      · simp_all
      · obtain ⟨o, c', ho', hc', hp'⟩ := hi.owner hq
        simp_all
  · exact (exec_context?_of_not_written h hw).trans hc

/-! ## Contexts seen (R154) -/

section OtherContexts

/-! A state with the contexts `cs` in the place of its own, among which `r` is the same context. -/

variable {cs : List Context} (hcs : ({ s with contexts := cs } : State).context? r = s.context? r)

include hcs

theorem requestReady_with_contexts : ({ s with contexts := cs } : State).requestReady r = s.requestReady r := by
  simp [State.requestReady, State.softwareReady, hcs]

/-- A change of context `r` is the same among either contexts. -/
theorem modifyContext_same_with_contexts (f : Context → Context) :
    (({ s with contexts := cs } : State).modifyContext r f).context? r = (s.modifyContext r f).context? r := by
  rw [modifyContext_same, modifyContext_same, hcs]

/-- The first sample does the same among either contexts. -/
theorem acceptNow_with_contexts (h : acceptNow r s = .next t) :
    ∃ t', acceptNow r { s with contexts := cs } = .next t' ∧ t'.context? r = t.context? r ∧
      { t' with contexts := t.contexts } = t := by
  have hready := (requestReady_with_contexts hcs).trans (acceptNow_ready h)
  rcases acceptNow_next h with ⟨rfl, rfl⟩ | ⟨hr, hl, rfl⟩ | ⟨hr, hl, -, rfl⟩
  · exact ⟨_, acceptNow_rtcIrq hready, hcs, rfl⟩
  · exact ⟨_, acceptNow_not_running hready hr hl, hcs, rfl⟩
  · exact ⟨_, acceptNow_running hready hr hl, modifyContext_same_with_contexts hcs _, rfl⟩

/-- So does the second, and its model error (R46). -/
theorem execRdSampleC_with_contexts (h : execRdSampleC r s = .next t) :
    ∃ t', execRdSampleC r { s with contexts := cs } = .next t' ∧ t'.context? r = t.context? r ∧
      { t' with contexts := t.contexts } = t := by
  obtain ⟨c, hc, hp, hl, ⟨hv, rfl⟩ | ⟨p, hv, rfl⟩⟩ := execRdSampleC_next h
  · exact ⟨_, execRdSampleC_of_no_pLatch hl (hcs.trans hc) hp hv, hcs, rfl⟩
  · exact ⟨_, execRdSampleC_of_latched hl (hcs.trans hc) hp hv, modifyContext_same_with_contexts hcs _, rfl⟩

end OtherContexts

/-! ## Accuracy (R150) -/

/-- A sample at tick `T` composes to `T` less the whole cycles that the lag makes up (R150). -/
theorem resolve_eq_sub_lag {T : Nat} (h : Sampling s r c p T) :
    ((resolve s.params.W p (trunc s.params.W s.hw.counter)).toNat : Int) =
      T - 2 * halfTicks s.params.W * (lag s.params.W p T / 2) := by
  obtain ⟨⟨h2, hw⟩, -⟩ := valid_iff.mp h.params
  have hc : (trunc s.params.W s.hw.counter).toNat = T % 2 ^ s.params.W := by
    rw [trunc_toNat, h.counter, Nat.mod_mod]
  have hT : (T : Int) = (T / halfTicks s.params.W : Nat) * halfTicks s.params.W + (T % halfTicks s.params.W : Nat) := by
    exact_mod_cast (Nat.div_add_mod' T (halfTicks s.params.W)).symm
  rw [resolve_toNat_of_tick (by omega) hw hc, Nat.cast_add, Nat.cast_mul, index_eq_sub_lag, lag]
  linear_combination -hT

/-- A lag that makes up no whole cycle is 0 or 1. -/
theorem sub_cycles_eq_iff {H T : Nat} (hH : 0 < H) (d : Int) : (T : Int) - 2 * H * (d / 2) = T ↔ d = 0 ∨ d = 1 := by
  have hne : (2 * H : Int) ≠ 0 := by omega
  rw [sub_eq_self, mul_eq_zero_iff_left hne]
  omega

end Sys2Proof.Machine
end

section
/-!
PROOFS. The statements of the timestamp resolver (41_timestamp_resolver.md): the two samples, the composition, its
accuracy, and readers beside each other.
-/

namespace Sys2Proof.Machine

open Sys2Proof.Safety

/-- Settles O11: an issue that is ready faults by its context, then by the life cycle, or latches PERIOD. -/
theorem nowSamplesPeriodFirst : Obligations.NowSamplesPeriodFirst := by
  intro s r i hi
  rw [exec_eq_acceptNow hi]
  refine ⟨?_, ?_, ?_⟩
  · rintro hl rfl hq
    exact acceptNow_rtcIrq (requestReady_none_iff.mpr ⟨hl, .inl ⟨rfl, hq⟩⟩)
  · intro c hl hr hc hp
    have hready := requestReady_none_iff.mpr ⟨hl, .inr ⟨hr, c, hc, hp⟩⟩
    refine ⟨acceptNow_not_running hready hr, fun hrun => ?_⟩
    rw [acceptNow_running hready hr hrun, modifyContext_eq_set _ hc]
  · intro hn
    refine refused_of_not_next fun t ht => ?_
    obtain ⟨hl, hready⟩ := requestReady_none_iff.mp (acceptNow_ready ht)
    obtain hf | ⟨hr, hq⟩ | ⟨hr, hp⟩ := hn
    · exact hl hf
    · exact hq (hready.resolve_right fun h => h.1 hr).2
    · obtain ⟨c, hc, hidle⟩ := (hready.resolve_left fun h => hr h.1).2
      exact hp c hc hidle

/-- Settles O12: the sample is the counter's low bits whatever the draw is, and its composition goes to the context. -/
theorem sampleCounterDeliversTheComposition : Obligations.SampleCounterDeliversTheComposition := by
  intro s r
  constructor
  · intro c p hc hp hv hl sample c'
    refine (execRdSampleC_of_latched hl hc hp hv).trans ?_
    rw [modifyContext_eq_set _ hc, sampleCounter_eq]
    rfl
  · intro hn
    refine refused_of_not_next fun t ht => ?_
    obtain ⟨c, hc, hp, hl, -⟩ := execRdSampleC_next ht
    rcases hn with hf | hn
    · exact hl hf
    · exact hn c hc hp

/-- Settles O13: the sum's terms regroup as whole periods and a remainder below H. -/
theorem compositionEquivalentForm : Obligations.CompositionEquivalentForm := by
  intro w p c h2 hw hc index
  have hindex : index = p.toNat + (p.toNat + c.toNat / halfTicks w) % 2 := by
    rw [← parity_xor_top_bit (by omega) hc]
  have hsum : (resolve w p c).toNat = index * halfTicks w + c.toNat % halfTicks w := by
    rw [hindex, resolve_toNat (by omega) hw hc]
  refine ⟨hsum, ?_, ?_, by omega⟩
  · rw [hsum, halfTicks, Nat.mul_add_mod_self_right, Nat.mod_mod]
  · change (resolve w p c).toNat / halfTicks w = index
    rw [hsum, Nat.add_comm, Nat.add_mul_div_right _ _ (halfTicks_pos w),
      Nat.div_eq_of_lt (Nat.mod_lt _ (halfTicks_pos w)), Nat.zero_add]

/-- Settles O14: the sum stays below its bound, which an odd last period with the top bit clear reaches. -/
theorem compositionNeverOverflows : Obligations.CompositionNeverOverflows := by
  intro w h2 hw
  refine ⟨fun p c hc => ⟨resolve_toNat_terms (by omega) hw hc, terms_le (by omega) hc⟩, bound_lt_two_pow_64 hw, ?_⟩
  have hpos := halfTicks_pos w
  have hlow : (half w - 1).toNat = halfTicks w - 1 := by
    rw [BitVec.toNat_sub_of_le (BitVec.le_def.mpr (by rw [half_toNat hw]; exact hpos)), half_toNat hw]
    rfl
  have hlt : halfTicks w - 1 < halfTicks w := by omega
  have hc : (half w - 1).toNat < 2 ^ w := by
    rw [hlow, two_pow_eq_halves (by omega)]
    omega
  rw [resolve_toNat (by omega) hw hc, hlow, Nat.div_eq_of_lt hlt, Nat.mod_eq_of_lt hlt]
  rfl

/-- Settles O15: the delivered stamp is the sample's composition, off by the whole cycles in the lag. -/
theorem resultIsExactIffLagIsZeroOrOne : Obligations.ResultIsExactIffLagIsZeroOrOne := by
  intro s r c p T h
  have hv := resolve_eq_sub_lag h
  have hx := execRdSampleC_of_latched h.live h.context h.haveP h.latch
  refine ⟨_, _, _, hx, context?_after_sample h.context, rfl, hv, ?_⟩
  rw [← sub_cycles_eq_iff (halfTicks_pos s.params.W), ← hv, Nat.cast_inj]

/-- Settles O16: both stamps are exact. -/
theorem timestampsDoNotDecreaseWithinLag : Obligations.TimestampsDoNotDecreaseWithinLag := by
  intro s₁ s₂ r₁ r₂ c₁ c₂ p₁ p₂ T₁ T₂ _ h₁ h₂ hT hlag₁ hlag₂
  obtain ⟨t₁, c₁', v₁, hx₁, hc₁, hr₁, -, hexact₁⟩ := resultIsExactIffLagIsZeroOrOne s₁ r₁ c₁ p₁ T₁ h₁
  obtain ⟨t₂, c₂', v₂, hx₂, hc₂, hr₂, -, hexact₂⟩ := resultIsExactIffLagIsZeroOrOne s₂ r₂ c₂ p₂ T₂ h₂
  have hv₁ := hexact₁.mpr hlag₁
  have hv₂ := hexact₂.mpr hlag₂
  exact ⟨t₁, t₂, c₁', c₂', v₁, v₂, hx₁, hc₁, hr₁, hx₂, hc₂, hr₂, hv₁, hv₂, by omega⟩

/-- Settles O17: a reader's step writes its own context and finds there all that it reads of the contexts. -/
theorem readersDoNotInterfere : Obligations.ReadersDoNotInterfere := by
  intro s t i r hi hx
  have hw : s.writtenContext i = some r := by rcases hi with rfl | rfl | rfl <;> rfl
  refine ⟨fun q hq => exec_context?_of_not_written hx (by simp [hw, hq.symm]), fun cs hcs => ?_⟩
  rcases hi with rfl | rfl | rfl
  · exact acceptNow_with_contexts hcs hx
  · exact acceptNow_with_contexts hcs hx
  · exact execRdSampleC_with_contexts hcs hx

/-- Settles O18: the invariant gives the waiting context its first sample, and no other step writes it. -/
theorem acceptedNowCompletes : Obligations.AcceptedNowCompletes := by
  intro s r c hi hl hc hp
  obtain ⟨p, hv⟩ := Option.isSome_iff_exists.mp ((hi.contextsOk c (mem_of_context? hc)).latched hp)
  exact ⟨⟨_, execRdSampleC_of_latched hl hc hp hv, hl⟩, fun i t hx hne => exec_context?_of_haveP hi hc hp hx hne⟩

end Sys2Proof.Machine
end

section
/-!
SUPPORT. The init sequencer run forward (42_interrupt_and_init.md R180 to R196): what INIT's acceptance answers, when
each init step is enabled, and what it leaves.
-/

namespace Sys2Proof.Machine

open Sys2Proof.Safety

variable {s t : State} {r : Byte} {c : Context} {q : InitState}

/-! ## Requests (R170, R180) -/

/-- RTC_IRQ's request before in.zero (R231). -/
theorem acceptIrq_rtcIrq_early (hl : s.lifecycle ≠ .faulted) (hq : s.seqState = .idle) (hv : s.periodValid = false) :
    acceptIrq rtcIrq s = .next (s.enterFault .notInitialized 0x30 rtcIrq) := by
  simp [acceptIrq, requestReady_none_iff.mpr ⟨hl, .inl ⟨rfl, hq⟩⟩, hv]

theorem acceptInit_ready (h : acceptInit r s = .next t) : s.initReady r = none := by
  cases hr : s.initReady r with
  | none => rfl
  | some f => rw [acceptInit_of_not_ready hr] at h; cases h

theorem acceptInit_rtcIrq (h : s.initReady rtcIrq = none) :
    acceptInit rtcIrq s = .next (s.enterFault .illegalContext 0x10 rtcIrq) := by
  simp [acceptInit, h]

theorem acceptInit_again (h : s.initReady r = none) (hr : r ≠ rtcIrq) (hu : s.lifecycle ≠ .uninit) :
    acceptInit r s = .next (s.enterFault .alreadyInitialized 0x10 r) := by
  simp [acceptInit, h, hr, hu]

theorem acceptInit_first (h : s.initReady r = none) (hr : r ≠ rtcIrq) (hu : s.lifecycle = .uninit) :
    acceptInit r s = .next { s.modifyContext r (fun c => { c with portState := .initWait }) with
      lifecycle := .initializing, initOwner := some r, initState := .zero } := by
  simp [acceptInit, h, hr, hu]

/-! ## Steps (R190 to R196) -/

theorem initStep_of_not_enabled {u : State} (h : s.lifecycle = .faulted ∨ s.initState ≠ q) :
    initStep s q u = .refused .notEnabled :=
  guarded_of_not_enabled (h.imp_right beq_false_of_ne)

theorem initStep_of_enabled {u : State} (hl : s.lifecycle ≠ .faulted) (hq : s.initState = q) :
    initStep s q u = .next u :=
  initStep_next_iff.mpr ⟨hq, hl, rfl⟩

/-- The immediate of in.setcmp is W bits wide, so that CC takes it whole (R93, R191). -/
theorem setCompare_immediate (hp : s.params.valid = true) (hs : s.compareFails = false) :
    s.hw.setCompare s.params s.draw s.params.cmpSlot s.compareImmediate = { s.hw with cc := half s.params.W } := by
  obtain ⟨⟨h2, hw⟩, -⟩ := valid_iff.mp hp
  have ha : acceptsCompare s.params s.draw s.params.cmpSlot = true := by
    simpa [compareFails_eq, acceptsCompare] using hs
  simp [Peripheral.setCompare, ha, State.compareImmediate, trunc_of_lt (half_lt (by omega) hw)]

theorem execInSetcmp_of_accepted (hl : s.lifecycle ≠ .faulted) (hq : s.initState = .setcmp)
    (hp : s.params.valid = true) (hs : s.compareFails = false) :
    execInSetcmp s = .next { s with initState := .clear, hw := { s.hw with cc := half s.params.W } } :=
  initStep_next_iff.mpr ⟨hq, hl, by rw [if_neg (by simp [hs]), setCompare_immediate hp hs]; rfl⟩

/-- The poll reads 0 iff the counter's low W bits are 0 (R194). -/
theorem respCounter_eq_zero_iff (s : State) :
    respCounter s.params.W (s.hw.getCounter s.params s.draw) = 0 ↔ s.hw.counter.toNat % 2 ^ s.params.W = 0 := by
  rw [respCounter_getCounter, BitVec.toNat_eq, trunc_toNat]
  rfl

theorem execInPoll_of_enabled (hl : s.lifecycle ≠ .faulted) (hq : s.initState = .poll) :
    execInPoll s = .next
      { s with initState := if s.hw.counter.toNat % 2 ^ s.params.W = 0 then .enOvf else .poll } :=
  initStep_next_iff.mpr ⟨hq, hl, by simp only [respCounter_eq_zero_iff]; rfl⟩

theorem execInPoll_of_zero (hl : s.lifecycle ≠ .faulted) (hq : s.initState = .poll)
    (hz : s.hw.counter.toNat % 2 ^ s.params.W = 0) : execInPoll s = .next { s with initState := .enOvf } := by
  rw [execInPoll_of_enabled hl hq, if_pos hz]

theorem execInPoll_of_nonzero (hl : s.lifecycle ≠ .faulted) (hq : s.initState = .poll)
    (hz : s.hw.counter.toNat % 2 ^ s.params.W ≠ 0) : execInPoll s = .next s := by
  rw [execInPoll_of_enabled hl hq, if_neg hz, ← hq]

/-- A change of an existing context, as the list of contexts shows it. -/
theorem modify_contexts_eq_set (f : Context → Context) (hc : s.context? r = some c) :
    s.contexts.modify r.toNat f = s.contexts.set r.toNat (f c) :=
  congrArg State.contexts (modifyContext_eq_set f hc)

theorem execInEnCmp_of_owner (hl : s.lifecycle ≠ .faulted) (hq : s.initState = .enCmp) (ho : s.initOwner = some r)
    (hc : s.context? r = some c) :
    execInEnCmp s = .next
      { s with
        initState := .idle
        lifecycle := .running
        hw := { s.hw with inten := ⟨s.hw.inten.ovf, true⟩ }
        contexts := s.contexts.set r.toNat { c with portState := .idle, response := some .done } } := by
  simp [execInEnCmp, hq, hl, ho, hc, modify_contexts_eq_set _ hc, Peripheral.enableInterrupt, KindBits.set]

theorem execInEnCmp_of_not_enabled (h : s.lifecycle = .faulted ∨ s.initState ≠ .enCmp) :
    execInEnCmp s = .refused .notEnabled :=
  if_neg fun he => h.elim he.2 fun hq => hq he.1

end Sys2Proof.Machine
end

section
/-!
SUPPORT. Services in unending runs (42_interrupt_and_init.md R171 to R179, R245): the sequencer moves in its own steps
alone, each brings it nearer to IDLE, and under fair delivery each is taken.
-/

namespace Sys2Proof.Safety

open Sys2Proof.Machine

variable {i : Instr} {s t : State} {q : SeqState} {k : Kind} {n : Nat} {state : Nat → State} {label : Nat → Instr}

/-! ## The sequencer's moves -/

/-- SEQ_STATE after the step that it enables (R172 to R178); a check goes by its flag. -/
def nextSeq (s : State) : SeqState :=
  match s.seqState with
  | .idle => .idle
  | .chkOvf => if s.hw.event.ovf then .ackOvf else .chkCmp
  | .ackOvf => .incOvf
  | .incOvf => .chkCmp
  | .chkCmp => if s.hw.event.cmp then .ackCmp else .exit
  | .ackCmp => .incCmp
  | .incCmp => .exit
  | .exit => .idle

theorem nextSeq_of_chkState (hq : s.seqState = chkState k) :
    nextSeq s = if s.hw.event.get k then ackState k else doneState k := by
  cases k <;> rw [nextSeq, hq] <;> rfl

theorem nextSeq_of_ackState (hq : s.seqState = ackState k) : nextSeq s = incState k := by
  cases k <;> rw [nextSeq, hq] <;> rfl

theorem nextSeq_of_incState (hq : s.seqState = incState k) : nextSeq s = doneState k := by
  cases k <;> rw [nextSeq, hq] <;> rfl

theorem seqState_of_service (hi : isServiceStep i = true) (ho : OwnEffect s t i) : t.seqState = nextSeq s := by
  cases i with
  | sqChkOvf | sqChkCmp => obtain ⟨hq, rfl⟩ := ho; simp [nextSeq, hq, KindBits.get]
  | sqAckOvf | sqIncOvf | sqAckCmp | sqIncCmp | sqExit => obtain ⟨hq, rfl⟩ := ho; simp [nextSeq, hq]
  | _ => cases hi

theorem ne_idle_of_service (hi : isServiceStep i = true) (ho : OwnEffect s t i) : s.seqState ≠ .idle := by
  cases i with
  | sqChkOvf | sqAckOvf | sqIncOvf | sqChkCmp | sqAckCmp | sqIncCmp | sqExit => obtain ⟨hq, -⟩ := ho; simp [hq]
  | _ => cases hi

/-- A step by which RTC_IRQ enters a service (R170). -/
def IsEntry (i : Instr) : Prop := i = .sqEnter ∨ i = .irqService rtcIrq

theorem seqState_of_entry (hi : IsEntry i) (ho : OwnEffect s t i) : s.seqState = .idle ∧ t.seqState = .chkOvf := by
  rcases hi with rfl | rfl
  · obtain ⟨-, hq, rfl⟩ := ho; exact ⟨hq, rfl⟩
  · obtain ⟨-, -, hq, rfl⟩ := ho; exact ⟨hq, rfl⟩

/-- SEQ_STATE is written by the sequencer alone (R30). -/
theorem seqState_of_other (hs : isServiceStep i ≠ true) (he : ¬IsEntry i) (ho : OwnEffect s t i) :
    t.seqState = s.seqState := by
  cases i with
  | init _ | now _ | rdSampleP _ => obtain ⟨-, -, -, rfl⟩ := ho; rfl
  | irqService _ => obtain ⟨rfl, -⟩ := ho; exact absurd (.inr rfl) he
  | rdSampleC _ => obtain ⟨_, _, -, -, -, rfl⟩ := ho; rfl
  | sqEnter => exact absurd (.inl rfl) he
  | sqChkOvf | sqAckOvf | sqIncOvf | sqChkCmp | sqAckCmp | sqIncCmp | sqExit => exact absurd rfl hs
  | inSetcmp => obtain ⟨-, -, rfl⟩ := ho; rfl
  | inEnCmp => obtain ⟨-, _, _, -, -, rfl⟩ := ho; rfl
  | _ => obtain ⟨-, rfl⟩ := ho; rfl

/-- The step that acknowledges is the one its SEQ_STATE enables (R173, R176). -/
theorem eq_ackStep_of_service (hi : isServiceStep i = true) (ho : OwnEffect s t i) (hq : s.seqState = ackState k) :
    i = ackStep k := by
  cases i with
  | sqChkOvf | sqAckOvf | sqIncOvf | sqChkCmp | sqAckCmp | sqIncCmp | sqExit =>
    obtain ⟨hq', -⟩ := ho
    cases k <;> cases hq'.symm.trans hq <;> rfl
  | _ => cases hi

/-- The steps that a service in SEQ_STATE `q` takes at most until it ends (R179). -/
def stepsLeft (q : SeqState) : Nat := if q = .idle then 0 else 8 - q.code.toNat

theorem stepsLeft_nextSeq_lt (hq : s.seqState ≠ .idle) : stepsLeft (nextSeq s) < stepsLeft s.seqState := by
  cases h : s.seqState with
  | idle => exact absurd h hq
  | chkOvf => rw [nextSeq_of_chkState (k := .ovf) h]; split <;> decide
  | ackOvf => rw [nextSeq_of_ackState (k := .ovf) h]; decide
  | incOvf => rw [nextSeq_of_incState (k := .ovf) h]; decide
  | chkCmp => rw [nextSeq_of_chkState (k := .cmp) h]; split <;> decide
  | ackCmp => rw [nextSeq_of_ackState (k := .cmp) h]; decide
  | incCmp => rw [nextSeq_of_incState (k := .cmp) h]; decide
  | exit => simp only [nextSeq, h]; decide

/-! ## Fair delivery -/

/-- Under fair delivery an entered service waits in its SEQ_STATE until its step is taken (R171). -/
theorem DeliveryFair.leadsTo_step {R : Nat → Prop} (h : IsEndlessRun state label) (hf : DeliveryFair state label)
    (hq : q ≠ .idle) (hR : ∀ m d, (state m).seqState = q → isServiceStep (label m) = true →
      OwnEffect { state m with draw := d } (state (m + 1)) (label m) → R (m + 1)) :
    LeadsTo (fun m => (state m).seqState = q) R := by
  refine leadsTo_of_kept (Q := fun m => isServiceStep (label m) = true) ?_ ?_ ?_
  · intro m hm hs
    obtain ⟨d, ho⟩ := h.ownEffect m
    have he : ¬IsEntry (label m) := fun he => hq (hm.symm.trans (seqState_of_entry he ho).1)
    exact (seqState_of_other hs he ho).trans hm
  · intro m hm hs
    obtain ⟨d, ho⟩ := h.ownEffect m
    exact hR m d hm hs ho
  · exact fun m hm => hf.2 m (hm ▸ hq)

/-- It leaves each SEQ_STATE for the next. -/
theorem DeliveryFair.leadsTo_nextSeq {R : SeqState → Prop} (h : IsEndlessRun state label)
    (hf : DeliveryFair state label) (hq : q ≠ .idle) (hR : ∀ m, (state m).seqState = q → R (nextSeq (state m))) :
    LeadsTo (fun m => (state m).seqState = q) (fun m => R (state m).seqState) :=
  hf.leadsTo_step h hq fun m _ hm hs ho => (seqState_of_service hs ho).symm ▸ hR m hm

/-- Every entered service ends: what is left of it grows less (R179). -/
theorem DeliveryFair.leadsTo_idle (h : IsEndlessRun state label) (hf : DeliveryFair state label) (q : SeqState) :
    LeadsTo (fun m => (state m).seqState = q) (fun m => (state m).seqState = .idle) := by
  induction hd : stepsLeft q using Nat.strong_induction_on generalizing q with
  | _ d ih =>
    by_cases hq : q = .idle
    · intro m hm
      exact ⟨m, le_rfl, hm.trans hq⟩
    · have hless := hf.leadsTo_nextSeq h hq (R := fun q' => stepsLeft q' < d)
        fun m hm => by rw [← hd, ← hm]; exact stepsLeft_nextSeq_lt (hm ▸ hq)
      exact hless.trans fun m hm => ih _ hm _ rfl m rfl

theorem IsEndlessRun.drop (h : IsEndlessRun state label) (n : Nat) :
    IsEndlessRun (fun j => state (n + j)) (fun j => label (n + j)) := fun j => h (n + j)

/-- What follows a state of a fair run is delivered fairly. -/
theorem DeliveryFair.drop (h : DeliveryFair state label) (n : Nat) :
    DeliveryFair (fun j => state (n + j)) (fun j => label (n + j)) := by
  have hlater {P : Nat → Prop} {j : Nat} (hm : ∃ m ≥ n + j, P m) : ∃ m ≥ j, P (n + m) := by
    obtain ⟨m, hm, hP⟩ := hm
    exact ⟨m - n, by omega, by rwa [show n + (m - n) = m by omega]⟩
  exact ⟨fun j hline hq hv => hlater (h.1 (n + j) hline hq hv), fun j hq => hlater (h.2 (n + j) hq)⟩

/-! ## Pending events -/

/-- An event of kind `k` is pending, and its interrupt can be delivered (R41, R171). -/
structure Pending (k : Kind) (s : State) : Prop where
  flag : s.hw.event.get k = true
  enabled : s.hw.inten.get k = true
  valid : s.periodValid = true

/-- It stays so until it is acknowledged (R39, R242). -/
theorem Pending.takes (h : Pending k s) (ht : Takes i s t) (hi : i ≠ ackStep k) : Pending k t := by
  obtain ⟨ha, d, hx⟩ := ht
  have hu := exec_upholds hx
  refine ⟨?_, hu.inten k h.enabled, hu.periodValid h.valid⟩
  by_contra hflag
  rcases exec_clears_flag hx h.flag (Bool.not_eq_true _ ▸ hflag) with rfl | rfl
  · cases ha
  · exact hi rfl

/-- While an event is pending, RTC_IRQ enters a service again and again (R171, R245). -/
theorem DeliveryFair.leadsTo_entry (h : IsEndlessRun state label) (hf : DeliveryFair state label)
    (hp : ∀ m, Pending k (state m)) :
    LeadsTo (fun m => (state m).seqState = .idle) (fun m => (state m).seqState = .chkOvf) := by
  refine leadsTo_of_kept (Q := fun m => IsEntry (label m)) ?_ ?_ ?_
  · intro m hm hi
    obtain ⟨d, ho⟩ := h.ownEffect m
    exact (seqState_of_other (fun hs => ne_idle_of_service hs ho hm) hi ho).trans hm
  · intro m _ hi
    obtain ⟨d, ho⟩ := h.ownEffect m
    exact (seqState_of_entry hi ho).2
  · intro m hm
    exact hf.1 m ((line_iff _).mpr ⟨k, (hp m).flag, (hp m).enabled⟩) hm (hp m).valid

/-- Each service comes to the check of either kind (R172 to R175). -/
theorem DeliveryFair.leadsTo_chkState (h : IsEndlessRun state label) (hf : DeliveryFair state label) (k : Kind) :
    LeadsTo (fun m => (state m).seqState = .chkOvf) (fun m => (state m).seqState = chkState k) := by
  cases k with
  | ovf => exact fun m hm => ⟨m, le_rfl, hm⟩
  | cmp =>
    have hinc := hf.leadsTo_nextSeq h (q := .incOvf) (R := (· = .chkCmp)) nofun
      fun m hm => nextSeq_of_incState (k := .ovf) hm
    have hack := hf.leadsTo_nextSeq h (q := .ackOvf) (R := (· = .incOvf)) nofun
      fun m hm => nextSeq_of_ackState (k := .ovf) hm
    have hchk := hf.leadsTo_nextSeq h (q := .chkOvf) (R := fun q => q = .ackOvf ∨ q = .chkCmp) nofun fun m hm => by
      rw [nextSeq_of_chkState (k := .ovf) hm]
      split
      · exact .inl rfl
      · exact .inr rfl
    exact hchk.trans fun m hm => hm.elim (hack.trans hinc m) fun hc => ⟨m, le_rfl, hc⟩

/-- A pending event is acknowledged: if it were not, it would stay pending, and some service would come to acknowledge
it (R171, R245). -/
theorem DeliveryFair.acknowledges (h : IsEndlessRun state label) (hf : DeliveryFair state label)
    (hp : Pending k (state 0)) : ∃ m, label m = ackStep k := by
  by_contra hnone
  have hnever : ∀ m, label m ≠ ackStep k := fun m hm => hnone ⟨m, hm⟩
  have hpending : ∀ m, Pending k (state m) := fun m => by
    induction m with
    | zero => exact hp
    | succ m ih => exact ih.takes (h m) (hnever m)
  have hk : chkState k ≠ .idle ∧ ackState k ≠ .idle := by cases k <;> exact ⟨nofun, nofun⟩
  have hcheck := ((hf.leadsTo_idle h (state 0).seqState).trans (hf.leadsTo_entry h hpending)).trans
    (hf.leadsTo_chkState h k)
  have hready := hf.leadsTo_nextSeq h (R := (· = ackState k)) hk.1 fun m hm => by
    rw [nextSeq_of_chkState hm, if_pos (hpending m).flag]
  have hstuck := hf.leadsTo_step h (R := fun _ => False) hk.2 fun m _ hm hs ho =>
    hnever m (eq_ackStep_of_service hs ho hm)
  obtain ⟨_, -, hfalse⟩ := (hcheck.trans hready).trans hstuck 0 rfl
  exact hfalse

end Sys2Proof.Safety
end

section
/-!
SUPPORT. An init under way (42_interrupt_and_init.md R197; 70_reset_and_hazards.md R274): its clock raises no event before
the first half-cycle, and each of its steps leaves an effect that no other agent undoes.
-/

namespace Sys2Proof.Safety

open Sys2Proof.Machine

variable {i : Instr} {s t : State} {q q' : InitState} {n T : Nat}

/-! ## Ticks before the first half-cycle -/

/-- A counter that has come to `T` since the clear, with H ahead of it, only counts (R114, R115). -/
theorem tick_of_fast {p : Params} {h : Peripheral} (hp : p.valid = true) (hc : h.counter = BitVec.ofNat 32 T)
    (hcc : h.cc = half p.W) (hT : T + 1 < halfTicks p.W) :
    h.tick p = { h with counter := BitVec.ofNat 32 (T + 1) } := by
  obtain ⟨⟨h2, hw⟩, -⟩ := valid_iff.mp hp
  have hcycle : 2 ^ p.W = 2 * halfTicks p.W := two_pow_eq_halves (by omega)
  have hlt := halfTicks_lt hw
  have hv : h.counter.toNat = T % 2 ^ p.W := by
    rw [hc, BitVec.toNat_ofNat, Nat.mod_eq_of_lt (by omega), Nat.mod_eq_of_lt (by omega)]
  have hmod : (T + 1) % 2 ^ p.W = T + 1 := Nat.mod_eq_of_lt (by omega)
  have hovf : overflows p h.counter = false := by
    rw [← Bool.not_eq_true, overflows_iff_mod hp hv, hmod]
    omega
  have hcmp : matchesCompare h (trunc p.W (h.counter + 1)) = false := by
    rw [← Bool.not_eq_true, matchesCompare_iff_mod hp hv hcc, hmod]
    omega
  have hnew : trunc p.W (h.counter + 1) = BitVec.ofNat 32 (T + 1) := by
    apply BitVec.eq_of_toNat_eq
    rw [trunc_succ_toNat hw, hv, Nat.mod_add_mod, hmod, BitVec.toNat_ofNat, Nat.mod_eq_of_lt (by omega)]
  rw [tick_eq, hovf, hcmp, hnew]
  simp

/-- `T` ticks have passed since the clear, and no clear is pending (R43, R117). -/
structure Ticking (T : Nat) (s : State) : Prop where
  ticks : s.tGhost = some T
  counter : s.hw.counter = BitVec.ofNat 32 T
  settled : s.hw.clearPending = false

theorem Ticking.redraw (h : Ticking T s) (d : Draw) : Ticking T { s with draw := d } := { h with }

/-- Only a tick, a clear and in.clear touch the clock (R217, R218). -/
theorem Ticking.keep (h : Ticking T s) (ha : isAgentStep i = true) (htick : i ≠ .hwTick) (hclear : i ≠ .inClear)
    (ho : OwnEffect s t i) : Ticking T t := by
  cases i with
  | init _ | now _ | rdSampleP _ | irqService _ => obtain ⟨-, -, -, rfl⟩ := ho; exact { h with }
  | rdSampleC _ => obtain ⟨_, _, -, -, -, rfl⟩ := ho; exact { h with }
  | sqEnter => obtain ⟨-, -, rfl⟩ := ho; exact { h with }
  | inSetcmp =>
    obtain ⟨-, -, rfl⟩ := ho
    exact ⟨h.ticks, by simp [h.counter], by simp [h.settled]⟩
  | inEnCmp => obtain ⟨-, _, _, -, -, rfl⟩ := ho; exact { h with }
  | hwTick => exact absurd rfl htick
  | inClear => exact absurd rfl hclear
  | hwClearApply => obtain ⟨hp, -⟩ := ho; simp [h.settled] at hp
  | getCounter | setCompare _ _ | clearCounter | enableCounter | enableInterrupt _ | isEventTriggered _
  | resetEvent _ => cases ha
  | _ => obtain ⟨-, rfl⟩ := ho; exact { h with }

/-! ## An init under way -/

/-- How far an init with INIT_STATE `q` has come, of the 8 steps from INIT to in.en_cmp; at IDLE it is completed. -/
def rank (q : InitState) : Nat := if q = .idle then 8 else q.code.toNat

/-- Whether a check has found a flag set that is not yet counted (R30, R45). -/
def isCounting : SeqState → Bool
  | .idle => false
  | .chkOvf => false
  | .ackOvf => true
  | .incOvf => true
  | .chkCmp => false
  | .ackCmp => true
  | .incCmp => true
  | .exit => false

/-- `n` of the 8 steps of an init are taken since reset, each has left its effect, and no event has been raised
(R180, R190 to R196). -/
structure Launching (n : Nat) (s : State) : Prop where
  stage : (n = 0 ∧ s.lifecycle = .uninit ∧ s.initState = .idle) ∨ ∃ q, n = rank q ∧ InitAt q s
  params : s.params.valid = true
  event : s.hw.event = ⟨false, false⟩
  unserved : isCounting s.seqState = false
  owned : 1 ≤ n → s.initOwner ≠ none
  zeroed : 2 ≤ n → s.period = 0 ∧ s.periodValid = true ∧ s.incsGhost = 0
  armed : 3 ≤ n → s.hw.cc = half s.params.W
  pending : s.hw.clearPending = true → 4 ≤ n
  running : s.hw.running = decide (5 ≤ n)
  inten : s.hw.inten = ⟨decide (7 ≤ n), decide (8 ≤ n)⟩

theorem launching_of_atReset (h : AtReset s) (hc : CleanLaunch s) : Launching 0 s := by
  obtain ⟨hp, -, -, hl, hi, hq, hclear, hinten, -⟩ := h
  obtain ⟨hrun, hevent⟩ := hc
  exact {
    stage := .inl ⟨rfl, hl, hi⟩
    params := hp
    event := hevent
    unserved := by rw [hq]; rfl
    owned := nofun
    zeroed := nofun
    armed := nofun
    pending := fun hp => by simp [hclear] at hp
    running := hrun
    inten := hinten }

theorem Launching.redraw (h : Launching n s) (d : Draw) : Launching n { s with draw := d } := { h with }

/-- INIT_STATE tells how far an init under way has come. -/
theorem Launching.at (h : Launching n s) (hq : s.initState = q) (hn : q ≠ .idle) : n = rank q ∧ InitAt q s := by
  obtain ⟨-, -, hidle⟩ | ⟨q', hr, ha⟩ := h.stage
  · exact absurd (hq.symm.trans hidle) hn
  · obtain rfl : q' = q := ha.1.symm.trans hq
    exact ⟨hr, ha⟩

/-- An init that no INIT has begun has taken no step. -/
theorem Launching.eq_zero (h : Launching n s) (hl : s.lifecycle = .uninit) : n = 0 := by
  obtain ⟨hn, -⟩ | ⟨q, -, -, hq⟩ := h.stage
  · exact hn
  · rw [hl] at hq
    split at hq <;> cases hq

/-- The step of the init sequencer from `q` to `q'` leaves the peripheral as `q'` finds it. -/
theorem Launching.advance {hw : Peripheral} (h : Launching (rank q) s) (ha : InitAt q s)
    (hq : 2 ≤ rank q ∧ rank q ≤ rank q' ∧ rank q' ≤ 7) (hevent : hw.event = s.hw.event)
    (harmed : hw.cc = half s.params.W) (hpending : hw.clearPending = true → 4 ≤ rank q')
    (hrunning : hw.running = decide (5 ≤ rank q')) (hinten : hw.inten = ⟨decide (7 ≤ rank q'), decide (8 ≤ rank q')⟩) :
    ∃ n' ≥ rank q, Launching n' ((s.setHw hw).setInitState q') := by
  obtain ⟨h2, hle, h7⟩ := hq
  have hidle : rank .idle = 8 := rfl
  have hne : q ≠ .idle := by rintro rfl; omega
  have hne' : q' ≠ .idle := by rintro rfl; omega
  exact ⟨_, hle, { h with
    stage := .inr ⟨q', rfl, rfl, by rw [if_neg hne']; exact ha.2.trans (if_neg hne)⟩
    event := hevent.trans h.event
    owned := fun _ => h.owned (by omega)
    zeroed := fun _ => h.zeroed h2
    armed := fun _ => harmed
    pending := hpending
    running := hrunning
    inten := hinten }⟩

/-- Whatever agents step in between, an init never goes back, and each of its steps leaves its effect (R181, R197). -/
theorem Launching.step (h : Launching n s) (ha : isAgentStep i = true)
    (htick : i = .hwTick → t.hw.event = ⟨false, false⟩) (ho : OwnEffect s t i) : ∃ n' ≥ n, Launching n' t := by
  cases i with
  | init r =>
    obtain ⟨-, hu, -, rfl⟩ := ho
    obtain rfl := h.eq_zero hu
    exact ⟨1, by decide, { h with
      stage := .inr ⟨.zero, rfl, rfl, rfl⟩
      owned := fun _ => nofun
      zeroed := nofun
      armed := nofun
      pending := fun hp => absurd (h.pending hp) (by decide) }⟩
  | inZero =>
    obtain ⟨hq, rfl⟩ := ho
    obtain ⟨rfl, -, hl⟩ := h.at hq nofun
    exact ⟨2, by decide, { h with
      stage := .inr ⟨.setcmp, rfl, rfl, hl⟩
      owned := fun _ => h.owned (by decide)
      zeroed := fun _ => ⟨rfl, rfl, rfl⟩
      armed := nofun
      pending := fun hp => absurd (h.pending hp) (by decide) }⟩
  | inSetcmp =>
    obtain ⟨hq, hs, rfl⟩ := ho
    obtain ⟨rfl, hat⟩ := h.at hq nofun
    rw [setCompare_immediate h.params hs]
    exact h.advance hat (by decide) rfl rfl (fun hp => absurd (h.pending hp) (by decide))
      h.running h.inten
  | inClear =>
    obtain ⟨hq, rfl⟩ := ho
    obtain ⟨rfl, hat⟩ := h.at hq nofun
    exact h.advance hat (by decide) rfl (h.armed (by decide)) (fun _ => by decide)
      h.running h.inten
  | inStart =>
    obtain ⟨hq, rfl⟩ := ho
    obtain ⟨rfl, hat⟩ := h.at hq nofun
    exact h.advance hat (by decide) rfl (h.armed (by decide)) (fun _ => by decide)
      rfl h.inten
  | inPoll =>
    obtain ⟨hq, rfl⟩ := ho
    obtain ⟨rfl, hat⟩ := h.at hq nofun
    split <;> exact h.advance (hw := s.hw) hat (by decide) rfl (h.armed (by decide)) (fun _ => by decide) h.running
      h.inten
  | inEnOvf =>
    obtain ⟨hq, rfl⟩ := ho
    obtain ⟨rfl, hat⟩ := h.at hq nofun
    exact h.advance hat (by decide) rfl (h.armed (by decide)) (fun _ => by decide)
      h.running (by simp [Peripheral.enableInterrupt, KindBits.set, h.inten]; decide)
  | inEnCmp =>
    obtain ⟨hq, o, c, -, -, rfl⟩ := ho
    obtain ⟨rfl, hat⟩ := h.at hq nofun
    exact ⟨8, by decide, { h with
      stage := .inr ⟨.idle, rfl, rfl, rfl⟩
      owned := fun _ => h.owned (by decide)
      zeroed := fun _ => h.zeroed (by decide)
      armed := fun _ => h.armed (by decide)
      pending := fun _ => by decide
      inten := by simp [Peripheral.enableInterrupt, KindBits.set, h.inten]; decide }⟩
  | hwTick => obtain ⟨-, rfl⟩ := ho; exact ⟨n, le_rfl, { h with event := htick rfl }⟩
  | hwClearApply => obtain ⟨-, rfl⟩ := ho; exact ⟨n, le_rfl, { h with pending := nofun }⟩
  | now _ | rdSampleP _ => obtain ⟨-, -, -, rfl⟩ := ho; exact ⟨n, le_rfl, { h with }⟩
  | rdSampleC _ => obtain ⟨_, _, -, -, -, rfl⟩ := ho; exact ⟨n, le_rfl, { h with }⟩
  | irqService _ => obtain ⟨-, -, -, rfl⟩ := ho; exact ⟨n, le_rfl, { h with unserved := rfl }⟩
  | sqEnter => obtain ⟨-, -, rfl⟩ := ho; exact ⟨n, le_rfl, { h with unserved := rfl }⟩
  | sqChkOvf | sqChkCmp =>
    obtain ⟨-, rfl⟩ := ho
    simp only [readFlag_eq, h.event]
    exact ⟨n, le_rfl, { h with unserved := rfl }⟩
  | sqExit => obtain ⟨-, rfl⟩ := ho; exact ⟨n, le_rfl, { h with unserved := rfl }⟩
  | sqAckOvf | sqIncOvf | sqAckCmp | sqIncCmp =>
    obtain ⟨hq, -⟩ := ho
    have hn := h.unserved
    rw [hq] at hn
    cases hn
  | _ => cases ha

end Sys2Proof.Safety
end

section
/-!
SUPPORT. Inits to their end (42_interrupt_and_init.md R197; 70_reset_and_hazards.md R274): every run with a clean launch,
a prompt clear and a fast init, and the runs that are made of the init's own steps and the counter's.
-/

namespace Sys2Proof.Safety

open Sys2Proof.Machine

variable {i : Instr} {s t : State} {r : Byte} {n T a b j k m : Nat} {state : Nat → State} {label : Nat → Instr}

/-! ## The completed init -/

theorem Launching.eq_eight (h : Launching n s) (hq : s.initState = .idle) (hl : s.lifecycle = .running) : n = 8 := by
  obtain ⟨-, hu, -⟩ | ⟨q, hn, hq', -⟩ := h.stage
  · cases hu.symm.trans hl
  · rw [hn, ← hq', hq]
    rfl

theorem Launching.completed (h : Launching 8 s) : s.initState = .idle ∧ s.lifecycle = .running := by
  obtain ⟨hn, -⟩ | ⟨q, hn, ha⟩ := h.stage
  · cases hn
  · cases q with
    | idle => exact ha
    | _ => cases hn

/-- The peripheral as R197 has it after a completed init. -/
theorem Launching.hw_eq (h : Launching 8 s) (ht : Ticking T s) :
    s.hw = ⟨BitVec.ofNat 32 T, true, false, half s.params.W, ⟨false, false⟩, ⟨true, true⟩⟩ := by
  calc s.hw = ⟨s.hw.counter, s.hw.running, s.hw.clearPending, s.hw.cc, s.hw.event, s.hw.inten⟩ := rfl
    _ = _ := by rw [ht.counter, h.running, ht.settled, h.armed (by decide), h.event, h.inten]; rfl

/-- Before the first half-cycle there is no event to account for (R44). -/
theorem Launching.accounted (h : Launching 8 s) (ht : Ticking T s) (hT : T < halfTicks s.params.W) : Accounted s T := by
  obtain ⟨⟨h2, hw⟩, -⟩ := valid_iff.mp h.params
  have hcycle : 2 ^ s.params.W = 2 * halfTicks s.params.W := two_pow_eq_halves (by omega)
  have hlt := halfTicks_lt hw
  obtain ⟨hperiod, -, hincs⟩ := h.zeroed (by decide)
  obtain ⟨hinit, hl⟩ := h.completed
  have hnot {q : SeqState} (hq : isCounting q = true) : s.seqState ≠ q := by
    rintro rfl
    exact absurd (hq.symm.trans h.unserved) (by decide)
  have huncounted : uncounted s = 0 := by
    simp [uncounted, h.event, hnot (q := .incOvf) rfl, hnot (q := .incCmp) rfl]
  exact {
    params := h.params
    ticks := ht.ticks
    counter := by
      rw [ht.counter, BitVec.toNat_ofNat, Nat.mod_eq_of_lt (by omega), Nat.mod_eq_of_lt (by omega)]
    armed := h.armed (by decide)
    latching := fun e => mayLatch_iff.mpr (.inl (by cases e <;> rw [h.inten] <;> rfl))
    settled := ht.settled
    initDone := hinit
    begun := by simp [hl]
    checkedOvf := fun hq => absurd hq (hnot rfl)
    checkedCmp := fun hq => absurd hq (hnot rfl)
    period := by rw [hperiod, hincs]; rfl
    account := by rw [hincs, huncounted, Nat.div_eq_of_lt hT] }

/-! ## Runs -/

/-- A step that another step follows has its instruction's own effect (R14). -/
theorem IsRun.ownEffect (h : IsRun state label n) (hj : j + 1 < n) :
    ∃ d, OwnEffect { state j with draw := d } (state (j + 1)) (label j) := by
  obtain ⟨-, d, hx⟩ := h j (by omega)
  obtain ⟨-, d', hx'⟩ := h (j + 1) hj
  refine ⟨d, ?_⟩
  obtain ⟨-, hf | ho⟩ := exec_next hx
  · obtain ⟨cause, op, src, -, ht⟩ := hf.enters
    exact absurd (congrArg State.lifecycle ht) (exec_next hx').1
  · exact ho

theorem IsRun.params (h : IsRun state label n) (hj : j ≤ n) : (state j).params = (state 0).params := by
  induction j with
  | zero => rfl
  | succ j ih =>
    obtain ⟨-, d, hx⟩ := h j (by omega)
    exact (exec_upholds hx).params.trans (ih (by omega))

/-- Only in.start sets the counter running (R36, R193). -/
theorem running_of_not_start (ha : isAgentStep i = true) (hi : i ≠ .inStart) (ho : OwnEffect s t i) :
    t.hw.running = s.hw.running := by
  cases i with
  | init _ | now _ | rdSampleP _ | irqService _ => obtain ⟨-, -, -, rfl⟩ := ho; rfl
  | rdSampleC _ => obtain ⟨_, _, -, -, -, rfl⟩ := ho; rfl
  | sqEnter => obtain ⟨-, -, rfl⟩ := ho; rfl
  | inSetcmp => obtain ⟨-, -, rfl⟩ := ho; simp
  | inStart => exact absurd rfl hi
  | inEnCmp => obtain ⟨-, _, _, -, -, rfl⟩ := ho; rfl
  | enableCounter | setCompare _ _ => cases ha
  | _ => obtain ⟨-, rfl⟩ := ho; rfl

theorem IsRun.started (h : IsRun state label n) (h0 : (state 0).hw.running = false) (hj : j < n)
    (hr : (state j).hw.running = true) : ∃ i < j, label i = .inStart := by
  induction j with
  | zero => simp [h0] at hr
  | succ j ih =>
    by_cases hi : label j = .inStart
    · exact ⟨j, by omega, hi⟩
    · obtain ⟨d, ho⟩ := h.ownEffect hj
      rw [running_of_not_start (h j (by omega)).1 hi ho] at hr
      obtain ⟨i, hij, hi⟩ := ih (by omega) hr
      exact ⟨i, by omega, hi⟩

theorem ticksBetween_of_le (h : n ≤ k + 1) : ticksBetween label k n = 0 := by
  induction n with
  | zero => rfl
  | succ n ih => rw [ticksBetween, ih (by omega), if_neg (by omega)]

theorem ticksBetween_succ (h : k < n) :
    ticksBetween label k (n + 1) =
      if label n = .hwTick then ticksBetween label k n + 1 else ticksBetween label k n := by
  by_cases hi : label n = .hwTick <;> simp [ticksBetween, h, hi]

theorem ticksBetween_mono (label : Nat → Instr) (k : Nat) : Monotone (ticksBetween label k) :=
  monotone_nat_of_le_succ fun _ => Nat.le_add_right _ _

/-- After the clear, an init has come past in.clear and its clock counts the ticks. -/
def Clocked (T : Nat) (s : State) : Prop := ∃ n ≥ 4, Launching n s ∧ Ticking T s

theorem Clocked.step (h : Clocked T s) (ha : isAgentStep i = true)
    (hT : (if i = .hwTick then T + 1 else T) < halfTicks s.params.W) (ho : OwnEffect s t i) :
    Clocked (if i = .hwTick then T + 1 else T) t := by
  obtain ⟨n, hn, hl, ht⟩ := h
  by_cases hi : i = .hwTick
  · subst hi
    rw [if_pos rfl] at hT ⊢
    have htick := tick_of_fast hl.params ht.counter (hl.armed (by omega)) hT
    obtain ⟨n', hn', hl'⟩ := hl.step ha (fun _ => by obtain ⟨-, rfl⟩ := ho; simp [htick, hl.event]) ho
    obtain ⟨-, rfl⟩ := ho
    exact ⟨n', by omega, hl', by simp [ht.ticks], by simp [htick], by simp [htick, ht.settled]⟩
  · rw [if_neg hi]
    obtain ⟨n', hn', hl'⟩ := hl.step ha (absurd · hi) ho
    have hclear : i ≠ .inClear := by
      rintro rfl
      obtain ⟨rfl, -⟩ := hl.at ho.1 nofun
      exact absurd hn (by decide)
    exact ⟨n', by omega, hl', ht.keep ha hi hclear ho⟩

section CleanRun

/-! A run from reset to in.en_cmp at `m`, with a clean launch and a prompt clear at `k`. -/

variable (hreset : AtReset (state 0)) (hclean : CleanLaunch (state 0)) (hrun : IsRun state label (m + 1))
  (hprompt : PromptClear state label k m)
include hreset hclean hrun hprompt

/-- Before the clear no tick comes: in.start does, and every tick after it waits for the clear. -/
theorem launching_until_clear (hj : j ≤ k) : ∃ n, Launching n (state j) := by
  have hkm := hprompt.completes
  induction j with
  | zero => exact ⟨0, launching_of_atReset hreset hclean⟩
  | succ j ih =>
    obtain ⟨n, hl⟩ := ih (by omega)
    obtain ⟨d, ho⟩ := hrun.ownEffect (j := j) (by omega)
    have htick : label j ≠ .hwTick := fun hi => by
      obtain ⟨hr, -⟩ : OwnEffect _ _ .hwTick := hi ▸ ho
      obtain ⟨i, hij, hi'⟩ := hrun.started hclean.1 (j := j) (by omega) hr
      have := hprompt.beforeTicks i j hij (by omega) hi' hi
      omega
    obtain ⟨n', -, hl'⟩ := (hl.redraw d).step (hrun j (by omega)).1 (absurd · htick) ho
    exact ⟨n', hl'⟩

/-- After it the clock counts the ticks, fewer than H of them. -/
theorem clocked_after_clear (hfast : FastInit (state 0).params.W label k m) (hj : k < j) (hjm : j ≤ m) :
    Clocked (ticksBetween label k j) (state j) := by
  induction j, hj using Nat.le_induction with
  | base =>
    obtain ⟨n, hl⟩ := launching_until_clear hreset hclean hrun hprompt le_rfl
    obtain ⟨d, ho⟩ := hrun.ownEffect (j := k) (by omega)
    rw [hprompt.clears] at ho
    obtain ⟨n', hn', hl'⟩ := (hl.redraw d).step (i := .hwClearApply) rfl nofun ho
    obtain ⟨hp, ht⟩ := ho
    have hn : 4 ≤ n := hl.pending hp
    rw [ticksBetween_of_le le_rfl]
    exact ⟨n', by omega, hl', by rw [ht], by rw [ht]; rfl, by rw [ht]; rfl⟩
  | succ j hj ih =>
    obtain ⟨n, hn, hl, ht⟩ := ih (by omega)
    obtain ⟨d, ho⟩ := hrun.ownEffect (j := j) (by omega)
    have hc : Clocked (ticksBetween label k j) { state j with draw := d } := ⟨n, hn, hl.redraw d, ht.redraw d⟩
    have hle : ticksBetween label k (j + 1) ≤ ticksBetween label k m := ticksBetween_mono label k hjm
    have hT := hle.trans_lt hfast
    rw [← hrun.params (j := j) (by omega)] at hT
    rw [ticksBetween_succ hj] at hT ⊢
    exact hc.step (hrun j (by omega)).1 hT ho

/-- in.en_cmp completes the init: an owner is there, so it does not fault. -/
theorem launched_of_clean_run (hfast : FastInit (state 0).params.W label k m) (hi : label m = .inEnCmp) :
    Launching 8 (state (m + 1)) ∧ Ticking (ticksBetween label k m) (state (m + 1)) ∧
      ∃ o c, (state (m + 1)).initOwner = some o ∧ (state (m + 1)).context? o = some c ∧ c.portState = .idle ∧
        c.response = some .done := by
  obtain ⟨n, hn, hl, ht⟩ := clocked_after_clear hreset hclean hrun hprompt hfast hprompt.completes le_rfl
  obtain ⟨-, d, hx⟩ := hrun m (by omega)
  rw [hi] at hx
  obtain ⟨-, ⟨-, hnone, -⟩ | ho⟩ := exec_next hx
  · exact absurd hnone (hl.owned (by omega))
  · obtain ⟨n', -, hl'⟩ := (hl.redraw d).step (i := .inEnCmp) rfl nofun ho
    have ht' := (ht.redraw d).keep (i := .inEnCmp) rfl nofun nofun ho
    obtain ⟨-, o, c, howner, hc, hu⟩ := ho
    obtain rfl := hl'.eq_eight (by rw [hu]; rfl) (by rw [hu])
    have hdone : (state (m + 1)).context? o = some { c with portState := .idle, response := some .done } := by
      rw [hu]
      exact (modifyContext_same _).trans (congrArg _ hc)
    exact ⟨hl', ht', o, _, by rw [hu]; exact howner, hdone, rfl, rfl⟩

end CleanRun

/-! ## The init's own steps -/

theorem runAll_append {is js : List Instr} {u : State} (h : runAll is s = .next t) (h' : runAll js t = .next u) :
    runAll (is ++ js) s = .next u :=
  (runAll_append_of_next h).trans h'

theorem runAll_inPoll (hl : s.lifecycle ≠ .faulted) (hq : s.initState = .poll)
    (hm : m = 0 ∨ s.hw.counter.toNat % 2 ^ s.params.W ≠ 0) : runAll (List.replicate m .inPoll) s = .next s := by
  induction m with
  | zero => rfl
  | succ m ih =>
    have hn := hm.resolve_left (Nat.succ_ne_zero m)
    rw [List.replicate_succ, runAll_cons_of_next (i := .inPoll) (execInPoll_of_nonzero hl hq hn)]
    exact ih (.inr hn)

/-- `s` with its clock at `T`. -/
def atTick (s : State) (T : Nat) : State :=
  { s with hw := { s.hw with counter := BitVec.ofNat 32 T }, tGhost := some T }

theorem runAll_hwTick (hl : s.lifecycle ≠ .faulted) (hr : s.hw.running = true) (hp : s.params.valid = true)
    (hcc : s.hw.cc = half s.params.W) (hT : T + n < halfTicks s.params.W) :
    runAll (List.replicate n .hwTick) (atTick s T) = .next (atTick s (T + n)) := by
  induction n generalizing T with
  | zero => rfl
  | succ n ih =>
    have htick : (atTick s T).hw.tick s.params = (atTick s (T + 1)).hw := tick_of_fast hp rfl hcc (by omega)
    have hstep : exec .hwTick (atTick s T) = .next (atTick s (T + 1)) :=
      (exec_hwTick (s := atTick s T) hl hr).trans
        (congrArg (fun hw => Host.Outcome.next { s with hw := hw, tGhost := some (T + 1) }) htick)
    rw [List.replicate_succ, runAll_cons_of_next hstep, ih (by omega)]
    congr 2
    omega

section OwnSteps

/-! An init from context `r`, by its own steps and the counter's alone. -/

/-- `s` after INIT from context `r` (R180). -/
def accepted (s : State) (r : Byte) : State :=
  { s.modifyContext r (fun c => { c with portState := .initWait }) with
    lifecycle := .initializing, initOwner := some r, initState := .zero }

/-- `accepted s r` after in.zero (R190). -/
def zeroed (s : State) (r : Byte) : State :=
  { accepted s r with period := 0, periodValid := true, incsGhost := 0, initState := .setcmp }

/-- `zeroed s r` after in.setcmp, in.clear and in.start (R191 to R193). -/
def started (s : State) (r : Byte) : State :=
  { zeroed s r with
    initState := .poll
    hw := { s.hw with cc := half s.params.W, clearPending := true, running := true } }

/-- `started s r` with no clear to come. -/
def cleared (s : State) (r : Byte) : State :=
  { started s r with hw := { (started s r).hw with clearPending := false } }

/-- `cleared s r` after the poll that reads 0 (R194). -/
def polled (s : State) (r : Byte) : State := { cleared s r with initState := .enOvf }

/-- `polled s r` after in.en_ovf (R195). -/
def enabledOvf (s : State) (r : Byte) : State :=
  { polled s r with initState := .enCmp, hw := { (polled s r).hw with inten := ⟨true, s.hw.inten.cmp⟩ } }

/-- `enabledOvf s r` after in.en_cmp (R196). -/
def launched (s : State) (r : Byte) : State :=
  { (enabledOvf s r).modifyContext r (fun c => { c with portState := .idle, response := some .done }) with
    initState := .idle
    lifecycle := .running
    hw := { (enabledOvf s r).hw with inten := ⟨true, true⟩ } }

variable {c : Context} (hl : s.lifecycle = .uninit) (hr : r ≠ rtcIrq) (hc : s.context? r = some c)
  (hidle : c.portState = .idle) (hp : s.params.valid = true) (hs : s.compareFails = false)

include hc in
theorem context?_accepted : (accepted s r).context? r = some { c with portState := .initWait } :=
  (modifyContext_same _).trans (congrArg _ hc)

include hl hr hc hidle hp hs in
theorem runAll_to_start : runAll [.init r, .inZero, .inSetcmp, .inClear, .inStart] s = .next (started s r) := by
  have hready : s.initReady r = none := initReady_none_iff.mpr ⟨by simp [hl], .inr ⟨hr, c, hc, hidle⟩⟩
  calc runAll [.init r, .inZero, .inSetcmp, .inClear, .inStart] s
      = runAll [.inZero, .inSetcmp, .inClear, .inStart] (accepted s r) :=
        runAll_cons_of_next (acceptInit_first hready hr hl)
    _ = runAll [.inSetcmp, .inClear, .inStart] (zeroed s r) := rfl
    _ = runAll [.inClear, .inStart]
          { zeroed s r with initState := .clear, hw := { s.hw with cc := half s.params.W } } :=
        runAll_cons_of_next (execInSetcmp_of_accepted (s := zeroed s r) nofun rfl hp hs)
    _ = .next (started s r) := rfl

theorem runAll_to_poll : runAll [.hwClearApply, .inPoll] (started s r) = .next (atTick (polled s r) 0) := by
  calc runAll [.hwClearApply, .inPoll] (started s r)
      = runAll [.inPoll] (atTick (cleared s r) 0) := rfl
    _ = .next (atTick (polled s r) 0) :=
        runAll_cons_of_next (execInPoll_of_zero (s := atTick (cleared s r) 0) nofun rfl (Nat.zero_mod _))

theorem exec_inEnOvf_polled : exec .inEnOvf (atTick (polled s r) T) = .next (atTick (enabledOvf s r) T) := rfl

include hc in
theorem exec_inEnCmp_enabledOvf : exec .inEnCmp (atTick (enabledOvf s r) T) = .next (atTick (launched s r) T) := by
  have howner : (atTick (enabledOvf s r) T).context? r = some { c with portState := .initWait } :=
    context?_accepted hc
  refine (execInEnCmp_of_owner (s := atTick (enabledOvf s r) T) nofun rfl rfl howner).trans ?_
  rw [← modify_contexts_eq_set (fun c => { c with portState := .idle, response := some .done }) howner]
  rfl

include hl hr hc hidle hp hs in
theorem runAll_initSteps (hm : m = 0 ∨ s.hw.counter.toNat % 2 ^ s.params.W ≠ 0) (hab : a + b < halfTicks s.params.W) :
    runAll (initSteps r m a b) s = .next (atTick (launched s r) (a + b)) := by
  have hpolls : runAll (List.replicate m .inPoll) (started s r) = .next (started s r) := runAll_inPoll nofun rfl hm
  have hticks : runAll (List.replicate a .hwTick) (atTick (polled s r) 0) = .next (atTick (polled s r) (0 + a)) :=
    runAll_hwTick nofun rfl hp rfl (show 0 + a < halfTicks s.params.W by omega)
  have hticks' : runAll (List.replicate b .hwTick) (atTick (enabledOvf s r) (0 + a)) =
      .next (atTick (enabledOvf s r) (0 + a + b)) :=
    runAll_hwTick nofun rfl hp rfl (show 0 + a + b < halfTicks s.params.W by omega)
  rw [Nat.zero_add] at hticks hticks'
  have hpolled := runAll_append (runAll_append (runAll_to_start hl hr hc hidle hp hs) hpolls) runAll_to_poll
  have hovf := runAll_append (runAll_append hpolled hticks) (js := [.inEnOvf]) (runAll_cons_of_next exec_inEnOvf_polled)
  exact runAll_append (runAll_append hovf hticks') (runAll_cons_of_next (exec_inEnCmp_enabledOvf hc))

include hc hidle in
theorem context?_launched : (atTick (launched s r) T).context? r = some { c with response := some .done } := by
  rw [hidle]
  exact (modifyContext_same (s := enabledOvf s r) _).trans (congrArg _ (context?_accepted hc))

include hp in
theorem launching_launched (hevent : s.hw.event = ⟨false, false⟩) (hq : s.seqState = .idle) :
    Launching 8 (atTick (launched s r) T) where
  stage := .inr ⟨.idle, rfl, rfl, rfl⟩
  params := hp
  event := hevent
  unserved := (congrArg isCounting hq).trans rfl
  owned := fun _ => nofun
  zeroed := fun _ => ⟨rfl, rfl, rfl⟩
  armed := fun _ => rfl
  pending := fun _ => by decide
  running := rfl
  inten := rfl

end OwnSteps

end Sys2Proof.Safety
end

section
/-!
PROOFS. The statements of the interrupt sequencer and the init sequencer (42_interrupt_and_init.md): their steps one by
one, INIT's acceptance, the services of fair runs, and the outcome of an init.
-/

namespace Sys2Proof.Safety

open Sys2Proof.Machine

/-- Settles O26: whatever SEQ_STATE is, the service in it runs to its end. -/
theorem everyServiceEnds : Obligations.EveryServiceEnds :=
  fun _ _ hrun hfair n => hfair.leadsTo_idle hrun _ n rfl

/-- Settles O27: the run from the pending event on is fair, and acknowledges it. -/
theorem pendingEventIsEventuallyAcknowledged : Obligations.PendingEventIsEventuallyAcknowledged := by
  intro state label n k hrun hfair hflag henabled hvalid
  obtain ⟨m, hm⟩ := (hfair.drop n).acknowledges (hrun.drop n) ⟨hflag, henabled, hvalid⟩
  exact ⟨n + m, by omega, by cases k <;> exact hm⟩

/-- Settles O28: an issue that is ready faults by its context, then by the life cycle, or begins the init. -/
theorem initIsAcceptedOnce : Obligations.InitIsAcceptedOnce := by
  intro s src
  refine ⟨?_, ?_, ?_⟩
  · rintro hl rfl
    exact acceptInit_rtcIrq (initReady_none_iff.mpr ⟨hl, .inl rfl⟩)
  · intro c hl hr hc hp
    have hready := initReady_none_iff.mpr ⟨hl, .inr ⟨hr, c, hc, hp⟩⟩
    refine ⟨fun hu => ?_, acceptInit_again hready hr⟩
    refine (acceptInit_first hready hr hu).trans ?_
    rw [modifyContext_eq_set _ hc]
  · intro hn
    refine refused_of_not_next fun t ht => ?_
    obtain ⟨hl, hready⟩ := initReady_none_iff.mp (acceptInit_ready ht)
    obtain hf | ⟨hr, hp⟩ := hn
    · exact hl hf
    · obtain ⟨c, hc, hidle⟩ := (hready.resolve_left hr).2
      exact hp c hc hidle

/-- Settles O33: up to the clear no tick comes, and after it the ticks stay short of the first half-cycle. -/
theorem cleanInitEndsRunningAtZero : Obligations.CleanInitEndsRunningAtZero := by
  constructor
  · intro state label k m hreset hclean hrun hi hprompt hfast u T
    obtain ⟨hl, ht, howner⟩ := launched_of_clean_run hreset hclean hrun hprompt hfast hi
    obtain ⟨hperiod, hvalid, -⟩ := hl.zeroed (by decide)
    have hparams : u.params = (state 0).params := hrun.params le_rfl
    exact ⟨hperiod, hvalid, hl.completed.2, hl.completed.1, ht.ticks, hl.hw_eq ht, hparams, howner,
      hl.accounted ht (hparams ▸ hfast)⟩
  · intro s r c m a b hreset hclean hr hc hslot ha hm hab
    obtain ⟨hp, hcontexts, -, hlife, -, hseq, -⟩ := hreset
    have hidle : c.portState = .idle := by rw [hcontexts c (mem_of_context? hc)]; rfl
    have hs : s.compareFails = false := by simp [compareFails_eq, hslot, ha]
    have hl : Launching 8 (atTick (launched s r) (a + b)) := launching_launched hp hclean.2 hseq
    have ht : Ticking (a + b) (atTick (launched s r) (a + b)) := ⟨rfl, rfl, rfl⟩
    exact ⟨_, runAll_initSteps hlife hr hc hidle hp hs hm hab, rfl, rfl, rfl, rfl, rfl, hl.hw_eq ht,
      context?_launched hc hidle, hl.accounted ht hab⟩

/-- Settles O20: RTC_IRQ's request is ready, and finds no Period Counter. -/
theorem earlyInterruptFaultsNotInitialized : Obligations.EarlyInterruptFaultsNotInitialized :=
  fun _ => acceptIrq_rtcIrq_early

/-- Settles O21: the check of either kind reads its flag and moves SEQ_STATE alone. -/
theorem checksReadTheFlags : Obligations.ChecksReadTheFlags :=
  fun _ => ⟨exec_chkStep (k := .ovf), exec_chkStep (k := .cmp), sequencerStep_of_not_enabled,
    sequencerStep_of_not_enabled⟩

/-- Settles O22: RESET_EVENT writes the flag of its kind, whichever kind it is. -/
theorem acknowledgmentsClearTheirFlag : Obligations.AcknowledgmentsClearTheirFlag :=
  fun _ => ⟨exec_ackStep (k := .ovf), exec_ackStep (k := .cmp), sequencerStep_of_not_enabled,
    sequencerStep_of_not_enabled⟩

/-- Settles O24: the return writes SEQ_STATE alone. -/
theorem serviceExit : Obligations.ServiceExit :=
  fun _ => ⟨exec_sqExit, sequencerStep_of_not_enabled⟩

/-- Settles O29: each of the four steps is enabled by its INIT_STATE and has one effect. -/
theorem initStepsFollowTheirOrder : Obligations.InitStepsFollowTheirOrder :=
  fun _ => ⟨initStep_of_enabled, initStep_of_enabled, initStep_of_enabled, initStep_of_enabled,
    initStep_of_not_enabled, initStep_of_not_enabled, initStep_of_not_enabled, initStep_of_not_enabled⟩

/-- Settles O30: the slot and the peripheral's answer decide between the write of H and the fault of INIT_OWNER. -/
theorem setCompareArmsHalfOrFails : Obligations.SetCompareArmsHalfOrFails := by
  intro s
  refine ⟨fun hl hq => ⟨fun hp hslot ha => ?_, fun o ho hfail => ?_⟩, initStep_of_not_enabled⟩
  · exact execInSetcmp_of_accepted hl hq hp (by simp [compareFails_eq, hslot, ha])
  · have hf : s.compareFails = true := by rcases hfail with h | h <;> simp [compareFails_eq, h]
    exact (execInSetcmp_of_fails hl hq hf).trans (by simp [enterFault_eq, State.faultOwner, ho])

/-- Settles O31: the poll reads the counter's low bits and moves INIT_STATE alone. -/
theorem pollWaitsForZero : Obligations.PollWaitsForZero :=
  fun _ => ⟨execInPoll_of_enabled, initStep_of_not_enabled⟩

/-- Settles O32: the owner's context is there, and its INIT completes with the second enable. -/
theorem enableCompareCompletesInit : Obligations.EnableCompareCompletesInit :=
  fun _ => ⟨fun _ _ => execInEnCmp_of_owner, execInEnCmp_of_not_enabled⟩

end Sys2Proof.Safety
end

section
/-!
SUPPORT. The peripheral's contract (43_peripheral_contract.md R210 to R218): the bits of its responses, what SET_COMPARE
writes, and which steps change the peripheral.
-/

namespace Sys2Proof.Machine

open Sys2Proof.Safety

variable {i : Instr} {s t : State}

/-! ## Responses and SET_COMPARE (R210, R211) -/

/-- The bits of a response above the ones that a rule fixes are the environment's (R94). -/
theorem joinLow_getLsbD_of_ge {w n : Nat} (low fill : Word) (h : w ≤ n) :
    (joinLow w low fill).getLsbD n = fill.getLsbD n := by
  by_cases hn : n < 32
  · simp only [joinLow, BitVec.getLsbD_or, BitVec.getLsbD_shiftLeft, BitVec.getLsbD_ushiftRight, trunc_getLsbD]
    simp [hn, h, Nat.not_lt.mpr h]
  · rw [BitVec.getLsbD_of_ge _ _ (by omega), BitVec.getLsbD_of_ge fill _ (by omega)]

theorem setCompare_of_accepted {h : Peripheral} {p : Params} {d : Draw} {slot : BitVec 4} (data : Word)
    (ha : acceptsCompare p d slot = true) (hs : slot = p.cmpSlot) :
    h.setCompare p d slot data = { h with cc := trunc p.W data } := by
  rw [Peripheral.setCompare, if_pos (by simp [ha, ← hs])]

theorem setCompare_of_not_accepted {h : Peripheral} {p : Params} {d : Draw} {slot : BitVec 4} (data : Word)
    (hn : acceptsCompare p d slot = false ∨ slot ≠ p.cmpSlot) : h.setCompare p d slot data = h := by
  rcases hn with ha | hs
  · simp [Peripheral.setCompare, ha]
  · simp [Peripheral.setCompare, hs]

/-! ## Who changes the peripheral (R217, R218) -/

/-- Off the bench no command line is enabled (R218). -/
theorem exec_command_off_bench (hb : s.bench = false) (hi : isAgentStep i = false) :
    exec i s = .refused .notEnabled := by
  cases i with
  | getCounter | setCompare _ _ | clearCounter | enableCounter | enableInterrupt _ | isEventTriggered _ | resetEvent _ =>
    exact guarded_of_not_enabled (.inr hb)
  | _ => cases hi

/-- A step of the block leaves the peripheral as the commands that it issues leave it (R217). -/
theorem OwnEffect.hw_eq_runCommands (ha : isAgentStep i = true) (htick : i ≠ .hwTick) (hclear : i ≠ .hwClearApply)
    (ho : OwnEffect s t i) :
    t.hw = (commandsOf s.params i).foldl (fun h c => h.runCommand s.params s.draw c) s.hw := by
  cases i with
  | getCounter | setCompare _ _ | clearCounter | enableCounter | enableInterrupt _ | isEventTriggered _ | resetEvent _ =>
    cases ha
  | hwTick => contradiction
  | hwClearApply => contradiction
  | init _ | now _ | rdSampleP _ | irqService _ => obtain ⟨-, -, -, rfl⟩ := ho; rfl
  | rdSampleC _ => obtain ⟨_, _, -, -, -, rfl⟩ := ho; rfl
  | sqEnter | inSetcmp => obtain ⟨-, -, rfl⟩ := ho; rfl
  | inEnCmp => obtain ⟨-, _, _, -, -, rfl⟩ := ho; rfl
  | _ => obtain ⟨-, rfl⟩ := ho; rfl

/-- Off the bench a line that changes the peripheral is an agent's step: a reserved word's fault leaves it (R237). -/
theorem agentStep_of_runLine {l : Line} (hb : s.bench = false) (h : runLine l s = .next t) (hw : t.hw ≠ s.hw) :
    ∃ i, isAgentStep i = true ∧ exec i s = .next t := by
  rcases runLine_next h with ⟨i, -, hx⟩ | ⟨src, w, -, -, rfl⟩
  · refine ⟨i, ?_, hx⟩
    by_contra ha
    rw [exec_command_off_bench hb (Bool.eq_false_of_not_eq_true ha)] at hx
    cases hx
  · exact absurd rfl hw

/-- A step of the machine that is no reset and changes the peripheral is a line, taken or chosen, after the step's
bookkeeping. -/
theorem runLine_of_step (h : step s = .next t) (hw : t.hw ≠ s.hw) (hreset : ∀ d rest, s.schedule ≠ .reset d :: rest) :
    ∃ l s', s'.hw = s.hw ∧ s'.params = s.params ∧ s'.bench = s.bench ∧ runLine l s' = .next t := by
  rcases step_next h with ⟨d, rest, hs, -⟩ | ⟨l, d, rest, -, hl⟩ | ⟨a, m, d, rest, l, ls, -, -, hl⟩ | ⟨-, hc⟩
  · exact absurd hs (hreset d rest)
  · exact ⟨l, s.take rest d, rfl, rfl, rfl, hl⟩
  · exact ⟨l, s.take _ d, rfl, rfl, rfl, hl⟩
  · rcases runChoice_next hc with hl | rfl
    · exact ⟨_, s.takeChoice _, rfl, rfl, rfl, hl⟩
    · exact absurd rfl hw

end Sys2Proof.Machine
end

section
/-!
PROOFS. The statements of the peripheral's contract (43_peripheral_contract.md): each command alone on a bench, and in the
block's machine the steps that issue them.
-/

namespace Sys2Proof.Machine

/-- Settles O40: a step's own effect is its commands', a fault entry leaves the peripheral, and off the bench every line
that runs is an agent's. -/
theorem blockChangesPeripheralOnlyByItsCommands : Obligations.BlockChangesPeripheralOnlyByItsCommands := by
  refine ⟨?_, fun _ _ => exec_command_off_bench, ?_⟩
  · intro s t i ha htick hclear hx
    obtain ⟨hl, hf | ho⟩ := exec_next hx
    · obtain ⟨cause, op, src, -, rfl⟩ := hf.enters
      exact ⟨fun hlive => absurd rfl hlive, fun _ => rfl⟩
    · exact ⟨fun _ => ho.hw_eq_runCommands ha htick hclear, fun hfaulted => absurd hfaulted (ho.live hl)⟩
  · intro s t hb h hw hreset
    obtain ⟨l, s', hhw, hparams, hbench, hl⟩ := runLine_of_step h hw hreset
    obtain ⟨i, ha, hx⟩ := agentStep_of_runLine (hbench.trans hb) hl (hhw ▸ hw)
    exact ⟨i, s', ha, hhw, hparams, hx⟩

/-- Settles O35: the response joins the counter's low W bits to the environment's fill. -/
theorem getCounterAnswersTheCounter : Obligations.GetCounterAnswersTheCounter := by
  intro s hb hl
  refine ⟨_, (exec_command_iff rfl).mpr ⟨hl, hb, rfl⟩, fun n _ => ?_⟩
  split
  · exact joinLow_getLsbD _ _ ‹_›
  · exact joinLow_getLsbD_of_ge _ _ (Nat.le_of_not_lt ‹_›)

/-- Settles O36: the response's bit 0 is the refusal, and CC is written iff the slot accepted is CMP_SLOT. -/
theorem setCompareAnswersAcceptance : Obligations.SetCompareAnswersAcceptance := by
  intro s slot data hb hl
  refine ⟨_, respRefused_setCompareResp s.params s.draw slot, fun hslot haccepts hcmp => ?_, fun hn => ?_⟩
  · have ha : acceptsCompare s.params s.draw slot = true := by simp [acceptsCompare, hslot, haccepts]
    exact (exec_command_iff rfl).mpr ⟨hl, hb, by rw [setCompare_of_accepted data ha hcmp]; rfl⟩
  · have hkept : acceptsCompare s.params s.draw slot = false ∨ slot ≠ s.params.cmpSlot := by
      rw [← or_assoc] at hn
      exact hn.imp_left fun ha => by rcases ha with h | h <;> simp [acceptsCompare, h]
    exact (exec_command_iff rfl).mpr ⟨hl, hb, by rw [setCompare_of_not_accepted data hkept]; rfl⟩

/-- Settles O37: on a bench each of the four commands leaves its own effect, the write of one bit. -/
theorem commandsWriteOneBit : Obligations.CommandsWriteOneBit := by
  intro s hb hl
  refine ⟨?_, ?_, ?_, ?_, ?_, ?_⟩ <;> exact (exec_command_iff rfl).mpr ⟨hl, hb, rfl⟩

/-- Settles O38: the response's bit 0 is the flag, and the command writes the response alone. -/
theorem isEventTriggeredAnswersTheFlag : Obligations.IsEventTriggeredAnswersTheFlag :=
  fun _ _ hb hl => ⟨_, (exec_command_iff rfl).mpr ⟨hl, hb, rfl⟩, joinLow_flag _ _⟩

end Sys2Proof.Machine
end

section
/-!
SUPPORT. Faults run forward and backward (60_exceptions.md R230 to R238): the reserved request words, and what a next
state that is faulted, or comes after a faulted one, says of the step.
-/

namespace Sys2Proof.Machine

open Sys2Proof.Safety

variable {i : Instr} {s t : State} {src w : Byte}

/-! ## Reserved request words (R85, R234) -/

theorem decode_reserved_request (h10 : w ≠ 0x10) (h20 : w ≠ 0x20) (h30 : w ≠ 0x30) :
    decode (.urp src w) = .rejected (.reservedRequest w) := by
  refine (decodeUrp_instr_or_reserved src w).resolve_left ?_
  rintro ⟨i, hi⟩
  have hw := exists_encode_eq_urp_iff.mp ⟨i, encode_of_decodeUrp hi⟩
  simp only [List.mem_cons, List.not_mem_nil, or_false] at hw
  rcases hw with hw | hw | hw
  · exact h10 (BitVec.eq_of_toNat_eq hw)
  · exact h20 (BitVec.eq_of_toNat_eq hw)
  · exact h30 (BitVec.eq_of_toNat_eq hw)

theorem acceptReserved_of_ready (h : s.requestReady src = none) :
    acceptReserved src w s = .next (s.enterFault .illegalCommand w src) := by
  simp [acceptReserved, h]

theorem acceptReserved_of_not_ready (h : s.requestReady src ≠ none) : ∃ r, acceptReserved src w s = .refused r := by
  obtain ⟨r, hr⟩ := Option.ne_none_iff_exists'.mp h
  exact ⟨r, by simp [acceptReserved, hr]⟩

/-- A reserved request word is issued all the same (R234). -/
theorem step_of_reserved_request {d : Draw} {rest : List Input} (hs : s.schedule = .line (.urp src w) d :: rest)
    (h10 : w ≠ 0x10) (h20 : w ≠ 0x20) (h30 : w ≠ 0x30) : step s = acceptReserved src w (s.take rest d) := by
  rw [step_of_line hs, runLine_of_rejected (decode_reserved_request h10 h20 h30)]
  rfl

/-- A line that an instruction encodes to takes the instruction. -/
theorem step_of_line_encode {d : Draw} {rest : List Input} (hs : s.schedule = .line (encode i) d :: rest) :
    step s = exec i (s.take rest d) := by
  rw [step_of_line hs, runLine_of_instr (decode_encode i)]

/-! ## Into FAULTED, and after it (R237, R238) -/

/-- An instruction that leaves the block faulted has taken one of its fault entries. -/
theorem faultEffect_of_exec (h : exec i s = .next t) (ht : t.lifecycle = .faulted) : FaultEffect s t i := by
  obtain ⟨hl, hf | ho⟩ := exec_next h
  · exact hf
  · exact absurd ht (ho.live hl)

/-- No line runs in a faulted block (R14). -/
theorem runLine_live {l : Line} (h : runLine l s = .next t) : s.lifecycle ≠ .faulted := by
  obtain ⟨i, -, hx⟩ | ⟨_, _, -, hl, -⟩ := runLine_next h
  · exact (exec_next hx).1
  · exact hl

end Sys2Proof.Machine
end

section
/-!
PROOFS. The statements of the exceptions (60_exceptions.md): which steps fault, what a fault records and leaves, and that
reset alone ends it.
-/

namespace Sys2Proof.Machine

open Sys2Proof.Safety

/-- Settles O2: a word that encodes no request is issued as reserved, and its issuer's readiness is the condition. -/
theorem reservedRequestFaultsIllegalCommand : Obligations.ReservedRequestFaultsIllegalCommand := by
  intro s src w d rest hs
  refine ⟨fun h10 h20 h30 => ?_, ?_, ?_, ?_⟩
  · rw [step_of_reserved_request hs h10 h20 h30]
    have hready := requestReady_none_iff (s := s.take rest d) (src := src)
    exact ⟨fun he => acceptReserved_of_ready (hready.mpr he),
      fun hn => acceptReserved_of_not_ready (hn ∘ hready.mp)⟩
  · rintro rfl; exact step_of_line_encode (i := .init src) hs
  · rintro rfl; exact step_of_line_encode (i := .now src) hs
  · rintro rfl; exact step_of_line_encode (i := .irqService src) hs

/-- Settles O45: the faulted state is an instruction's fault entry, which writes the record and LIFECYCLE alone. -/
theorem faultsArePrecise : Obligations.FaultsArePrecise := by
  intro i s t hx ht
  obtain ⟨_, _, _, hc, rfl⟩ := (faultEffect_of_exec hx ht).enters
  exact ⟨rfl, hc⟩

/-- Settles O46: the acceptances and in.setcmp have fault entries, and the invariant excludes the model errors. -/
theorem faultsAriseOnlyAtAcceptanceOrSetCompare : Obligations.FaultsAriseOnlyAtAcceptanceOrSetCompare := by
  intro i s t hi hx ht
  have hf := faultEffect_of_exec hx ht
  cases i with
  | now r =>
    obtain ⟨hr, rfl⟩ | ⟨hr, -, rfl⟩ := hf <;> exact .inl ⟨r, .inl rfl, rfl, rfl, by simp [hr]⟩
  | rdSampleP r =>
    obtain ⟨hr, rfl⟩ | ⟨hr, -, rfl⟩ := hf <;> exact .inl ⟨r, .inr rfl, rfl, rfl, by simp [hr]⟩
  | init r =>
    obtain ⟨hr, rfl⟩ | ⟨hr, -, rfl⟩ := hf <;> exact .inr (.inl ⟨r, rfl, rfl, rfl, by simp [hr]⟩)
  | irqService r =>
    obtain ⟨hr, rfl⟩ | ⟨hr, -, rfl⟩ := hf <;> exact .inr (.inr (.inl ⟨r, rfl, rfl, rfl, by simp [hr]⟩))
  | inSetcmp =>
    have ho := initOwner_of_faultEffect_inSetcmp hi hf
    obtain ⟨-, -, rfl⟩ := hf
    exact .inr (.inr (.inr ⟨rfl, rfl, ho, rfl⟩))
  | rdSampleC _ => exact absurd hf (not_faultEffect_rdSampleC hi)
  | inEnCmp => exact absurd hf (not_faultEffect_inEnCmp hi)
  | _ => exact hf.elim

/-- Settles O47: no line runs in a faulted block, so that a step which is no reset is a choice passed over. -/
theorem onlyResetLeavesFaulted : Obligations.OnlyResetLeavesFaulted := by
  intro s t hl h
  obtain ⟨d, rest, hs, -⟩ | ⟨_, _, _, -, hr⟩ | ⟨_, _, _, _, _, _, -, -, hr⟩ | ⟨hs, hc⟩ := step_next h
  · exact .inl ⟨d, rest, hs⟩
  · exact (runLine_live hr hl).elim
  · exact (runLine_live hr hl).elim
  · obtain hr | rfl := runChoice_next hc
    · exact (runLine_live hr hl).elim
    · exact .inr ⟨hs, rfl⟩

end Sys2Proof.Machine
end

section
/-!
SUPPORT. The states that reset leaves (70_reset_and_hazards.md R270, R271): the machine's first state is the one that the
block's reset leaves it in, and in such a state no sequencer, no port and no interrupt is under way.
-/

namespace Sys2Proof.Machine

open Sys2Proof.Safety

variable {i : Instr} {s t : State}

theorem step_of_reset {d : ResetDraw} {rest : List Input} (h : s.schedule = .reset d :: rest) :
    step s = .next ((s.take rest s.draw).applyReset d) := by
  simp [step, runNext, h]

/-- The machine begins as the block's reset leaves it. -/
theorem applyReset_reset : State.reset.applyReset Config.resetDraw = State.reset := by
  simp [State.applyReset, State.reset]

theorem mem_contexts_applyReset {d : ResetDraw} {c : Context} (h : c ∈ (s.applyReset d).contexts) :
    c = Context.atReset := by
  rw [State.applyReset_contexts, List.mem_map] at h
  obtain ⟨_, -, rfl⟩ := h
  rfl

theorem params_valid : Config.params.valid = true := by
  have := Config.widthLess2.isLt
  have := Config.nSlotsLess1.isLt
  rw [valid_iff]
  simp only [Config.params]
  omega

theorem nReaders_range : 1 ≤ Config.nReaders ∧ Config.nReaders ≤ 255 := by
  have := Config.nReadersLess1.isLt
  simp only [Config.nReaders]
  omega

/-- No interrupt is enabled, so that LINE is 0 whatever the flags are (R41, R271). -/
theorem line_of_atReset (h : AtReset s) : s.line = false := by
  obtain ⟨-, -, -, -, -, -, -, hinten, -⟩ := h
  simp [State.line, hinten]

/-- The one own effect beside HW's tick that a state after reset enables is INIT's acceptance (R271). -/
theorem init_or_tick_of_atReset (h : AtReset s) (ha : isAgentStep i = true) (ho : OwnEffect s t i) :
    (∃ r, i = .init r ∧ r ≠ rtcIrq ∧ t.lifecycle = .initializing) ∨ (i = .hwTick ∧ s.hw.running = true) := by
  obtain ⟨-, hcontexts, hperiod, hlife, hinit, hseq, hclear, -, -⟩ := h
  cases i with
  | init r => obtain ⟨hr, -, -, rfl⟩ := ho; exact .inl ⟨r, rfl, hr, rfl⟩
  | hwTick => exact .inr ⟨rfl, ho.1⟩
  | now _ | rdSampleP _ => obtain ⟨-, hrun, -⟩ := ho; cases hlife.symm.trans hrun
  | rdSampleC _ =>
    obtain ⟨c, _, hc, hp, -⟩ := ho
    rw [hcontexts c (mem_of_context? hc)] at hp
    cases hp
  | irqService _ => obtain ⟨-, hv, -⟩ := ho; cases hperiod.symm.trans hv
  | sqEnter => obtain ⟨hv, -⟩ := ho; cases hperiod.symm.trans hv
  | sqChkOvf | sqAckOvf | sqIncOvf | sqChkCmp | sqAckCmp | sqIncCmp | sqExit =>
    obtain ⟨hq, -⟩ := ho
    cases hseq.symm.trans hq
  | inZero | inSetcmp | inClear | inStart | inPoll | inEnOvf | inEnCmp =>
    obtain ⟨hq, -⟩ := ho
    cases hinit.symm.trans hq
  | hwClearApply => obtain ⟨hp, -⟩ := ho; cases hclear.symm.trans hp
  | _ => cases ha

end Sys2Proof.Machine
end

section
/-!
SUPPORT. A NOW in a run that accounts for its events (70_reset_and_hazards.md R283): the run keeps the account and the
first sample, and the latency and the gap leave the lag no room for a second event.
-/

namespace Sys2Proof.Safety

open Sys2Proof.Machine

variable {i j k L G m m' n T : Nat} {s t : State} {a : Instr} {r : Byte} {c : Context} {p : Word}
  {state : Nat → State} {label : Nat → Instr} {tick : Nat → Nat}

/-! ## One step -/

/-- A step keeps the account at the tick count of its next state, which is no smaller. -/
theorem Accounted.takes_of_ticks (h : Accounted s m) (ht : Takes a s t) (hlost : LosesNoEvent a s)
    (hm : t.tGhost = some m') : Accounted t m' ∧ m ≤ m' := by
  have ht' := h.takes ht hlost
  obtain rfl := Option.some.inj (ht'.ticks.symm.trans hm)
  exact ⟨ht', by split <;> omega⟩

/-- With the init done, a context between its two samples is written by its own second sample alone (R142). -/
theorem Accounted.context?_of_haveP (h : Accounted s m) (ht : Takes a s t) (hc : s.context? r = some c)
    (hp : c.portState = .haveP) (hne : a ≠ .rdSampleC r) : t.context? r = some c := by
  obtain ⟨-, d, hx⟩ := ht
  by_cases hw : State.writtenContext { s with draw := d } a = some r
  · obtain ⟨-, hf | ho⟩ := exec_next hx
    · obtain ⟨_, _, _, -, rfl⟩ := hf.enters
      exact hc
    · exfalso
      obtain ha | ⟨c', hc', hidle⟩ | ⟨hq, -⟩ := ho.of_writtenContext hw
      · exact hne ha
      · obtain rfl := Option.some.inj (hc.symm.trans hc')
        cases hp.symm.trans hidle
      · exact hq h.initDone
  · exact (exec_context?_of_not_written hx hw).trans hc

/-- The first sample's own effect latches PERIOD (R141). -/
theorem context?_of_sampleP (ha : a = .now r ∨ a = .rdSampleP r) (ho : OwnEffect s t a) :
    ∃ c, t.context? r = some c ∧ c.portState = .haveP ∧ c.pLatch = some s.period := by
  have hown : IdleAt s r ∧ t = s.modifyContext r fun c => { c with pLatch := some s.period, portState := .haveP } := by
    rcases ha with rfl | rfl <;> exact ho.2.2
  obtain ⟨⟨c, hc, -⟩, rfl⟩ := hown
  exact ⟨_, by rw [modifyContext_same, hc]; rfl, rfl, rfl⟩

/-! ## The lag -/

/-- A PERIOD sampled at tick `m` has counted no event to come, and all but the last of those raised by tick `T`: the one
after the next falls more than `L + G` ticks after the one that the latency lets it miss (R283). -/
theorem Accounted.lag_zero_or_one (h : Accounted s m) (hwrap : s.incsGhost < 2 ^ 32) (hlat : LatencyAtMost L s)
    (hLG : L + G < halfTicks s.params.W) (hm : m ≤ T) (hT : T ≤ m + G) :
    lag s.params.W s.period T = 0 ∨ lag s.params.W s.period T = 1 := by
  have hp : s.period.toNat = s.incsGhost := by rw [h.period, Nat.mod_eq_of_lt hwrap]
  have hle : s.incsGhost ≤ T / halfTicks s.params.W := by
    have hcounted := h.account
    have hmono : m / halfTicks s.params.W ≤ T / halfTicks s.params.W := Nat.div_le_div_right hm
    omega
  have hlate : m ≤ (s.incsGhost + 1) * halfTicks s.params.W + L := by
    by_contra hgt
    have := hlat m (s.incsGhost + 1) h.ticks (by omega)
    omega
  have hlt : T / halfTicks s.params.W < s.incsGhost + 2 := by
    rw [Nat.div_lt_iff_lt_mul (halfTicks_pos _)]
    calc T ≤ (s.incsGhost + 1) * halfTicks s.params.W + (L + G) := by omega
      _ < (s.incsGhost + 1) * halfTicks s.params.W + halfTicks s.params.W := by omega
      _ = (s.incsGhost + 2) * halfTicks s.params.W := (Nat.succ_mul _ _).symm
  rw [lag, hp]
  omega

/-- Within that lag the second sample delivers the tick count (R143, R150). -/
theorem Sampling.delivers (h : Sampling s r c p T)
    (hlag : lag s.params.W p T = 0 ∨ lag s.params.W p T = 1) (hx : exec (.rdSampleC r) s = .next t) :
    ∃ c' v, t.context? r = some c' ∧ c'.result = some v ∧ c'.response = some (.timestamp v) ∧ v.toNat = T := by
  have ht := execRdSampleC_of_latched h.live h.context h.haveP h.latch
  obtain rfl := Host.Outcome.next.inj (hx.symm.trans ht)
  refine ⟨_, _, context?_after_sample h.context, rfl, rfl, ?_⟩
  rw [← Nat.cast_inj (R := Int), resolve_eq_sub_lag h, sub_cycles_eq_iff (halfTicks_pos _)]
  exact hlag

/-! ## The run -/

/-- A run that starts with every event accounted for and loses none, with the tick count of each state. -/
structure AccountedRun (state : Nat → State) (label : Nat → Instr) (tick : Nat → Nat) (n : Nat) : Prop where
  run : IsRun state label n
  start : Accounted (state 0) (tick 0)
  ticks : ∀ k ≤ n, (state k).tGhost = some (tick k)
  lossless : ∀ k < n, LosesNoEvent (label k) (state k)

theorem AccountedRun.accounted (h : AccountedRun state label tick n) (hk : k ≤ n) : Accounted (state k) (tick k) := by
  induction k with
  | zero => exact h.start
  | succ k ih =>
    exact ((ih (by omega)).takes_of_ticks (h.run k hk) (h.lossless k hk) (h.ticks (k + 1) hk)).1

theorem AccountedRun.tick_mono (h : AccountedRun state label tick n) (hij : i ≤ j) (hj : j ≤ n) : tick i ≤ tick j := by
  induction j, hij using Nat.le_induction with
  | base => exact le_rfl
  | succ j _ ih =>
    have hstep := (h.accounted (by omega)).takes_of_ticks (h.run j hj) (h.lossless j hj) (h.ticks (j + 1) hj)
    exact (ih (by omega)).trans hstep.2

/-- The first sample stays latched until the second (R142). -/
theorem AccountedRun.context?_between (h : AccountedRun state label tick n) (hij : i + 1 ≤ j) (hj : j ≤ n)
    (hc : (state (i + 1)).context? r = some c) (hp : c.portState = .haveP)
    (hnone : ∀ k, i < k → k < j → label k ≠ .rdSampleC r) : (state j).context? r = some c := by
  induction j, hij using Nat.le_induction with
  | base => exact hc
  | succ j hij ih =>
    exact (h.accounted (by omega)).context?_of_haveP (h.run j hj)
      (ih (by omega) fun k hik hkj => hnone k hik (by omega)) hp (hnone j hij (by omega))

end Sys2Proof.Safety
end

section
/-!
PROOFS. The statements of reset and timing (70_reset_and_hazards.md): what reset leaves, what it enables, and the exact
NOW.
-/

namespace Sys2Proof.Safety

open Sys2Proof.Machine

/-- Settles O60: the PERIOD sampled at step `i` is still latched at step `j`, where its lag is 0 or 1. -/
theorem everyNowIsExactUnderLatencyAndGap : Obligations.EveryNowIsExactUnderLatencyAndGap := by
  intro state label tick n L G i j r hrun hstart hticks hlost hwrap hlat hLG hij hj hi hlabel hnone hgap
  have h : AccountedRun state label tick n := ⟨hrun, hstart, hticks, hlost⟩
  obtain ⟨_, ho⟩ := hrun.ownEffect (j := i) (by omega)
  obtain ⟨c, hc, hp, hv⟩ := context?_of_sampleP hi ho
  have hlag := (h.accounted (by omega)).lag_zero_or_one (hwrap i (by omega)) (hlat i (by omega))
    (by rwa [hrun.params (by omega)]) (h.tick_mono (by omega) (by omega)) hgap
  rw [hrun.params (show i ≤ n by omega), ← hrun.params (show j ≤ n by omega)] at hlag
  obtain ⟨-, d, hx⟩ := hrun j hj
  rw [hlabel] at hx
  have hacc := h.accounted (show j ≤ n by omega)
  have hsampling : Sampling { state j with draw := d } r c (state i).period (tick j) :=
    { params := hacc.params
      context := h.context?_between hij (by omega) hc hp hnone
      haveP := hp
      latch := hv
      live := (exec_next hx).1
      ticks := hacc.ticks
      counter := hacc.counter }
  exact hsampling.delivers hlag hx

/-- Settles O49: a fault entry ends faulted, and every own effect but INIT's acceptance and the tick wants a state that
reset does not leave. -/
theorem onlyInitSucceedsAfterReset : Obligations.OnlyInitSucceedsAfterReset := by
  intro s h
  have ⟨_, _, hperiod, _⟩ := h
  refine ⟨line_of_atReset h, execSqEnter_of_not_enabled (.inr (.inr hperiod)), fun i t ha hx => ?_⟩
  obtain ⟨-, hf | ho⟩ := exec_next hx
  · obtain ⟨_, _, _, -, rfl⟩ := hf.enters
    exact .inl rfl
  · exact .inr (init_or_tick_of_atReset h ha ho)

/-- Settles O48: the machine's first state is one that a reset leaves, and a reset writes every register. -/
theorem resetLeavesTheResetValues : Obligations.ResetLeavesTheResetValues := by
  unfold Obligations.ResetLeavesTheResetValues
  intro isReset
  have hreset (s : State) (d : ResetDraw) : isReset s.params (s.applyReset d) := by
    refine ⟨rfl, rfl, rfl, rfl, rfl, rfl, rfl, rfl, rfl, fun c hc => ?_, rfl, rfl, rfl, rfl, rfl⟩
    obtain rfl := mem_contexts_applyReset hc
    exact ⟨rfl, rfl, rfl, rfl⟩
  refine ⟨applyReset_reset ▸ hreset State.reset Config.resetDraw, rfl, fun s d rest hs => ?_⟩
  exact ⟨_, step_of_reset hs, hreset (s.take rest s.draw) d, List.length_map _, rfl, rfl, rfl, rfl⟩

/-- Settles O50: the free parameters are in their ranges, and nothing has begun. -/
theorem invariantHoldsAtReset : Obligations.InvariantHoldsAtReset := by
  have hreset : ∀ c ∈ State.reset.contexts, c = Context.atReset := fun c hc => List.eq_of_mem_replicate hc
  exact {
    params := params_valid
    readers := by simpa [State.reset] using nReaders_range
    counterWidth := trunc_lt _ _
    ccWidth := trunc_lt _ _
    contextsOk := fun c hc => by rw [hreset c hc]; exact ⟨nofun, nofun⟩
    ghostTick := nofun
    ghostIncs := rfl
    cause := by simp [State.reset]
    uninit := fun _ => ⟨rfl, rfl, fun c hc => by rw [hreset c hc]; rfl⟩
    initializing := nofun
    running := nofun
    owner := fun hq => absurd rfl hq
    sequencer := fun hq => absurd rfl hq
    zeroed := fun hq => absurd rfl hq }

end Sys2Proof.Safety
end
